-- ==== Sys2Proof/Word.lean ====
section
/-! DEFINITION. The values that cross the command port: bytes, streams, the 64-bit value, the 32-bit lengths (R7, R13,
R73), and one command as the host presents it on that port (R70, R72). -/

namespace Sys2Proof

/-- A digit, a character or an element of a stream: `DIGW = CHARW = 8` (R7). -/
abbrev Byte := BitVec 8

/-- A finite sequence of 8-bit elements, element 0 the first one transferred (R13, R51). -/
abbrev Stream := List Byte

/-- The operand `VAL` and the result `RVAL`: `VALW = 64` (R7, R73, R74). -/
abbrev Value := BitVec 64

/-- The operand `LEN` and a declared stream length: `LENW = SLENW = 32` (R7, R66, R73). -/
abbrev Length := BitVec 32

/-- One command on the command port: the word `OP` and what stands beside it on every operand port (R70, R72, R83).
`saLen` and `sbLen` are the declared lengths of the streams, `sa` and `sb` the bytes of them the host has delivered so
far. A command whose format does not name a port leaves it unread, whatever it carries (R78). -/
structure Command where
  op : Byte
  val : Value
  len : Length
  saLen : Length
  sbLen : Length
  sa : Stream
  sb : Stream
deriving DecidableEq, Repr

end Sys2Proof
end

