-- ==== Sys2Proof/Config.lean ====
section
/-! DEFINITION. What an implementation of the block fixes, and the values the spec leaves free. -/

namespace Sys2Proof

/-- The four tables of the configuration, as names (R28 to R30). -/
inductive TableName where
  | alpha
  | rev
  | perm
  | inv
deriving DecidableEq, Repr

/-- How many digits the buffer holds beyond the 64 every implementation has. No body: every `NMAX >= 64` of R8 is meant
(notes/assumptions/5, DESIGN CHOICE, safe). -/
opaque Config.spareDigits : Nat

/-- `NMAX`, the capacity of the digit buffer, with the constraint `NMAX >= 64` of R8 built in. -/
def Config.nmax : Nat := Config.spareDigits + 64

/-- What stands in a table entry that no rule gives a value: an entry at or above `ASIZE` (R28, R30, R38, U4). No body:
nothing can be proved of it, and no run reads one (R58; notes/assumptions/6, DESIGN CHOICE, safe). -/
opaque Config.unspecifiedEntry : TableName → Byte → Byte

/-- The greatest length of the operand of `B64E` for which R66 defines the command. -/
def Config.b64eDomain : Nat := 3221225469

end Sys2Proof
end

