-- ==== Sys2Proof/Syntax.lean ====
section
/-! DEFINITION. The seventeen commands of R75 with the operands of their formats (R72), one constructor for each row of
spec/opcode_table.json. -/

namespace Sys2Proof

/-- A decoded command (R75). A stream operand is the whole byte sequence of its declared length (R73). -/
inductive Instr where
  /-- `CFG`, 0x01, format C: alphabet, permutation as Base64 text, minimum length (R110). -/
  | cfg (sa sb : Stream) (len : Length)
  /-- `ENC`, 0x02, format V: encode a 64-bit value to a string (R177). -/
  | enc (val : Value)
  /-- `DEC`, 0x03, format S: decode a string to a 64-bit value (R179). -/
  | dec (sa : Stream)
  /-- `B64E`, 0x04, format S: bytes to Base64 text (R92). -/
  | b64e (sa : Stream)
  /-- `B64D`, 0x05, format S: Base64 text to bytes (R94). -/
  | b64d (sa : Stream)
  /-- `PIPF`, 0x08, format N: all forward rounds (R171). -/
  | pipf
  /-- `PIPB`, 0x09, format N: all backward rounds (R174). -/
  | pipb
  /-- `I2D`, 0x10, format V: integer to digits (R131). -/
  | i2d (val : Value)
  /-- `D2I`, 0x11, format N: digits to integer (R134). -/
  | d2i
  /-- `C2D`, 0x12, format S: characters to digits (R163). -/
  | c2d (sa : Stream)
  /-- `D2C`, 0x13, format N: digits to characters (R161). -/
  | d2c
  /-- `ROTL`, 0x14, format N: rotate left by one place (R141). -/
  | rotl
  /-- `ROTR`, 0x15, format N: rotate right by one place (R143). -/
  | rotr
  /-- `PERMF`, 0x16, format N: substitute through the permutation (R145). -/
  | permf
  /-- `PERMB`, 0x17, format N: substitute through the inverse permutation (R147). -/
  | permb
  /-- `CASF`, 0x18, format N: forward additive cascade (R149). -/
  | casf
  /-- `CASB`, 0x19, format N: backward cascade (R150). -/
  | casb
deriving DecidableEq, Repr

end Sys2Proof
end

