-- ==== Sys2Proof/WellFormed.lean ====
section
/-! DEFINITION. Which commands the command port can carry: a stream length is an unsigned 32-bit number (R66), and
`B64E` is defined for `len(SA) <= 3221225469` only (R66, U8). Every value of `VAL`, `LEN` and of a stream element is
legal as an encoding (R78). -/

namespace Sys2Proof

/-- A stream whose length the 32-bit length port can declare (R66, R73). -/
def streamFits (s : Stream) : Bool := s.length < 2 ^ 32

/-- The command lies in the domain R66 and R73 give its operands. -/
def Instr.wf : Instr → Bool
  | .cfg sa sb _ => streamFits sa && streamFits sb
  | .enc _ => true
  | .dec sa => streamFits sa
  | .b64e sa => sa.length ≤ Config.b64eDomain
  | .b64d sa => streamFits sa
  | .pipf => true
  | .pipb => true
  | .i2d _ => true
  | .d2i => true
  | .c2d sa => streamFits sa
  | .d2c => true
  | .rotl => true
  | .rotr => true
  | .permf => true
  | .permb => true
  | .casf => true
  | .casb => true

/-- The command on the port is complete and exact: as many bytes as declared on both streams (R228). -/
def Command.wf (c : Command) : Bool :=
  c.sa.length = c.saLen.toNat && c.sb.length = c.sbLen.toNat

end Sys2Proof
end

