-- ==== Sys2Proof/Decode.lean ====
section
/-! DEFINITION. The opcode map (R75), the decoder from the command port to a command, and the encoder. -/

namespace Sys2Proof

/-- The four formats: which operand ports a command samples (R72). -/
inductive Format where
  /-- no operand -/
  | N
  /-- `VAL` -/
  | V
  /-- the stream `SA` -/
  | S
  /-- the streams `SA` and `SB`, and `LEN` -/
  | C
deriving DecidableEq, Repr

/-- Why the port holds no command to run. -/
inductive Undecoded where
  /-- `OP` is none of the seventeen opcodes: the command answers `IllegalCommand` (R77, R200). -/
  | illegalCommand (op : Byte)
  /-- a stream that the format names has fewer bytes than declared so far: the block waits (R228). -/
  | awaitingBytes
deriving DecidableEq, Repr

/-- One row of the opcode map (R75). -/
structure OpcodeRow where
  op : Byte
  mnemonic : String
  format : Format
deriving DecidableEq, Repr

/-- The seventeen rows of R75. -/
def opcodeTable : List OpcodeRow :=
  [ ⟨0x01, "CFG", .C⟩, ⟨0x02, "ENC", .V⟩, ⟨0x03, "DEC", .S⟩, ⟨0x04, "B64E", .S⟩, ⟨0x05, "B64D", .S⟩,
    ⟨0x08, "PIPF", .N⟩, ⟨0x09, "PIPB", .N⟩,
    ⟨0x10, "I2D", .V⟩, ⟨0x11, "D2I", .N⟩, ⟨0x12, "C2D", .S⟩, ⟨0x13, "D2C", .N⟩, ⟨0x14, "ROTL", .N⟩,
    ⟨0x15, "ROTR", .N⟩, ⟨0x16, "PERMF", .N⟩, ⟨0x17, "PERMB", .N⟩, ⟨0x18, "CASF", .N⟩, ⟨0x19, "CASB", .N⟩ ]

/-- The row of an opcode: the match is on all eight bits (mask 0xFF, R75). -/
def findRow (op : Byte) : Option OpcodeRow := opcodeTable.find? (fun r => r.op = op)

/-- A stream operand: the first `declared` bytes delivered, once they are all there (R73, R228; bytes beyond the
declared length are not read, notes/assumptions/3, DESIGN CHOICE, unsafe). -/
def readStream (declared : Length) (delivered : Stream) : Option Stream :=
  if declared.toNat ≤ delivered.length then some (delivered.take declared.toNat) else none

/-- A command of format S, from its stream `SA` (R72). -/
def decodeS (c : Command) (make : Stream → Instr) : Except Undecoded Instr :=
  match readStream c.saLen c.sa with
  | some sa => .ok (make sa)
  | none => .error .awaitingBytes

/-- A command of format C, from its streams `SA` and `SB` and from `LEN` (R72). -/
def decodeC (c : Command) (make : Stream → Stream → Length → Instr) : Except Undecoded Instr :=
  match readStream c.saLen c.sa, readStream c.sbLen c.sb with
  | some sa, some sb => .ok (make sa sb c.len)
  | _, _ => .error .awaitingBytes

/-- The decoder: `OP` decides the command and with it the ports that are read (R72, R75, R77, R78). -/
def decode (c : Command) : Except Undecoded Instr :=
  match c.op.toNat with
  | 0x01 => decodeC c .cfg
  | 0x02 => .ok (.enc c.val)
  | 0x03 => decodeS c .dec
  | 0x04 => decodeS c .b64e
  | 0x05 => decodeS c .b64d
  | 0x08 => .ok .pipf
  | 0x09 => .ok .pipb
  | 0x10 => .ok (.i2d c.val)
  | 0x11 => .ok .d2i
  | 0x12 => decodeS c .c2d
  | 0x13 => .ok .d2c
  | 0x14 => .ok .rotl
  | 0x15 => .ok .rotr
  | 0x16 => .ok .permf
  | 0x17 => .ok .permb
  | 0x18 => .ok .casf
  | 0x19 => .ok .casb
  | _ => .error (.illegalCommand c.op)

/-- A command with the word `op` and nothing on any operand port: values zero, streams declared empty. -/
def bareCommand (op : Byte) : Command :=
  { op := op, val := 0, len := 0, saLen := 0, sbLen := 0, sa := [], sb := [] }

/-- Puts a stream on the port `SA` with its length declared (R72, R73). -/
def Command.withSA (c : Command) (s : Stream) : Command :=
  { c with saLen := BitVec.ofNat 32 s.length, sa := s }

/-- Puts a stream on the port `SB` with its length declared (R72, R73). -/
def Command.withSB (c : Command) (s : Stream) : Command :=
  { c with sbLen := BitVec.ofNat 32 s.length, sb := s }

/-- The encoder: the opcode of R75, the operands of R72 on their ports, every other port zero or empty. -/
def encode : Instr → Command
  | .cfg sa sb len => { ((bareCommand 0x01).withSA sa).withSB sb with len := len }
  | .enc val => { bareCommand 0x02 with val := val }
  | .dec sa => (bareCommand 0x03).withSA sa
  | .b64e sa => (bareCommand 0x04).withSA sa
  | .b64d sa => (bareCommand 0x05).withSA sa
  | .pipf => bareCommand 0x08
  | .pipb => bareCommand 0x09
  | .i2d val => { bareCommand 0x10 with val := val }
  | .d2i => bareCommand 0x11
  | .c2d sa => (bareCommand 0x12).withSA sa
  | .d2c => bareCommand 0x13
  | .rotl => bareCommand 0x14
  | .rotr => bareCommand 0x15
  | .permf => bareCommand 0x16
  | .permb => bareCommand 0x17
  | .casf => bareCommand 0x18
  | .casb => bareCommand 0x19

/-- The command whose word is the low `nbits` bits of `w` (a command word has eight, R70), with nothing on the operand
ports (notes/assumptions/8). -/
def commandOfTableWord (nbits w : Nat) : Command := bareCommand (BitVec.ofNat 8 (w % 2 ^ nbits))

/-- What the decoder reads from a word of spec/opcode_table.json, every operand zero or empty. -/
def decodeTableWord (nbits w : Nat) : Option Instr :=
  match decode (commandOfTableWord nbits w) with
  | .ok i => some i
  | .error _ => none

end Sys2Proof
end

