-- ==== Sys2Proof/Machine/State.lean ====
section
/-! DEFINITION. Every piece of state the spec gives the block (R20), as plain data, with what stands on its command and
response ports beside it, and the state after reset (R37, R220). -/

namespace Sys2Proof.Machine

/-- Why the machine stops. No constructor: the spec gives every command an effect, errors are responses (R190, R201),
and no access can leave its table (R58), so nothing raises a fault (safe). -/
inductive Fault where
deriving DecidableEq, Repr

/-- Why an instruction has no meaning. -/
inductive Refusal where
  /-- The instruction's arm in `exec` is not modelled yet. No arm raises it: all seventeen commands have their meaning
  (safe). -/
  | notModelled (mnemonic : String)
deriving DecidableEq, Repr

/-- The configuration (R17, R20): `CFGV` (R25), `ASIZE` (R26), `MINLEN` (R27) and the four tables (R28 to R30). `alpha`,
`perm` and `inv` hold the `ASIZE` architectural entries and nothing beyond, as R38 allows; `rev` holds an entry for each
of the 256 characters, `some idx` for {1, idx} and `none` for a clear valid bit, whose `idx` has no value. -/
structure Configuration where
  cfgv : Bool
  asize : BitVec 9
  minlen : Nat
  alpha : List Byte
  rev : List (Option Byte)
  perm : List Byte
  inv : List Byte
deriving DecidableEq, Repr

/-- One response (R74). -/
structure Response where
  code : BitVec 4
  sub : BitVec 2
  info : Byte
  ovf : Bool
  rval : Value
  so : Stream
deriving DecidableEq, Repr

/-- The host's side of the block: what it presents on the ports, and the responses it has taken. Not the spec's state
(R20): the model's own, because a step has no other input (notes/assumptions/1, 2, 4). -/
structure Port where
  /-- the host asserts reset (R220) -/
  rst : Bool
  /-- the host takes responses (R228) -/
  rspReady : Bool
  /-- the commands the host offers, oldest first (R71) -/
  cmds : List Command
  /-- the responses the host has taken, oldest first -/
  taken : List Response
deriving DecidableEq, Repr

/-- The state of the block (R20), and its ports. -/
structure State where
  /-- the committed configuration (R17) -/
  conf : Configuration
  /-- `BUF[0]` to `BUF[DLEN-1]`, most significant digit first (R21, R22, R52); nothing beyond, as R38 allows -/
  buf : List Byte
  /-- `ST`, the status register (R31) -/
  st : BitVec 15
  /-- a command was taken and waits for bytes of its streams (R71, R228) -/
  busy : Bool
  /-- the response given and not yet taken (R71, R74, R228) -/
  rsp : Option Response
  /-- the host's side -/
  port : Port
deriving DecidableEq, Repr

/-- The configuration after reset (R37): no instance exists. The four tables have no value in the spec; the model names
one (notes/assumptions/6, DESIGN CHOICE, unsafe). -/
def Configuration.reset : Configuration :=
  { cfgv := false, asize := 0, minlen := 0, alpha := [], rev := List.replicate 256 none, perm := [], inv := [] }

/-- Nothing offered, the host ready to take responses (notes/assumptions/1, 2, 4, DESIGN CHOICE). -/
def Port.reset : Port := { rst := false, rspReady := true, cmds := [], taken := [] }

/-- The block right after reset: idle, no configuration, no digit, `ST` zero (R37, R220). -/
def State.reset : State :=
  { conf := Configuration.reset, buf := [], st := 0, busy := false, rsp := none, port := Port.reset }

end Sys2Proof.Machine
end

