-- ==== Sys2Proof/Machine/Flags.lean ====
section
/-! DEFINITION. The status of a response: error causes and their codes (R191), the layout of `ST` (R31), and the
overflow flag of the digit-to-integer conversion (R25, R135). -/

namespace Sys2Proof.Machine

/-- The errors of R191, one constructor for each name and sub-name, with the byte a cause reports in `INFO`. -/
inductive Cause where
  /-- `InvalidAlphabet.size` (R111, R192) -/
  | alphabetSize
  /-- `InvalidAlphabet.duplicate` (R112, R192) -/
  | alphabetDuplicate
  /-- `InvalidConfig.min_length` (R113, R193) -/
  | configMinLength
  /-- `InvalidFormat.length` (R95, R194) -/
  | formatLength
  /-- `InvalidFormat.character` with the offending character (R96, R194) -/
  | formatCharacter (c : Byte)
  /-- `InvalidFormat.padding` (R97, R194) -/
  | formatPadding
  /-- `InvalidPermutation.length_mismatch` (R117, R195) -/
  | permutationLength
  /-- `InvalidPermutation.not_unique` (R118, R195) -/
  | permutationNotUnique
  /-- `InvalidPermutation.out_of_range` (R119, R195) -/
  | permutationOutOfRange
  /-- `CharacterNotInAlphabet` with the offending character (R163, R196) -/
  | characterNotInAlphabet (c : Byte)
  /-- `NotConfigured` (R198) -/
  | notConfigured
  /-- `CapacityExceeded.min_length` (R114, R199) -/
  | capacityMinLength
  /-- `CapacityExceeded.text` (R163, R199) -/
  | capacityText
  /-- `IllegalCommand` with the opcode (R77, R200) -/
  | illegalCommand (op : Byte)
deriving DecidableEq, Repr

/-- The error code (R191). -/
def Cause.code : Cause → BitVec 4
  | .alphabetSize => 1
  | .alphabetDuplicate => 1
  | .configMinLength => 2
  | .formatLength => 3
  | .formatCharacter _ => 3
  | .formatPadding => 3
  | .permutationLength => 4
  | .permutationNotUnique => 4
  | .permutationOutOfRange => 4
  | .characterNotInAlphabet _ => 5
  | .notConfigured => 8
  | .capacityMinLength => 9
  | .capacityText => 9
  | .illegalCommand _ => 10

/-- The sub-code (R191). -/
def Cause.sub : Cause → BitVec 2
  | .alphabetSize => 1
  | .alphabetDuplicate => 2
  | .configMinLength => 1
  | .formatLength => 1
  | .formatCharacter _ => 2
  | .formatPadding => 3
  | .permutationLength => 1
  | .permutationNotUnique => 2
  | .permutationOutOfRange => 3
  | .characterNotInAlphabet _ => 0
  | .notConfigured => 0
  | .capacityMinLength => 1
  | .capacityText => 2
  | .illegalCommand _ => 0

/-- The information byte (R191): the offending character, `0x3D` for misplaced padding, the opcode, else 0. -/
def Cause.info : Cause → Byte
  | .formatCharacter c => c
  | .formatPadding => 0x3D
  | .characterNotInAlphabet c => c
  | .illegalCommand op => op
  | .alphabetSize => 0
  | .alphabetDuplicate => 0
  | .configMinLength => 0
  | .formatLength => 0
  | .permutationLength => 0
  | .permutationNotUnique => 0
  | .permutationOutOfRange => 0
  | .notConfigured => 0
  | .capacityMinLength => 0
  | .capacityText => 0

/-- The error response of a cause (R201, R203): no overflow, no value, no output. -/
def errorResponse (e : Cause) : Response :=
  { code := e.code, sub := e.sub, info := e.info, ovf := false, rval := 0, so := [] }

/-- The success response with its results (R14, R74). -/
def okResponse (rval : Value) (ovf : Bool) (so : Stream) : Response :=
  { code := 0, sub := 0, info := 0, ovf := ovf, rval := rval, so := so }

/-- The status part of a response in the layout of `ST`: `{OVF, INFO, SUB, CODE}` (R31). -/
def Response.status (r : Response) : BitVec 15 := BitVec.ofBool r.ovf ++ r.info ++ r.sub ++ r.code

/-- `ST.CODE`, bits 3:0 (R31). -/
def stCode (st : BitVec 15) : BitVec 4 := st.extractLsb' 0 4

/-- `ST.SUB`, bits 5:4 (R31). -/
def stSub (st : BitVec 15) : BitVec 2 := st.extractLsb' 4 2

/-- `ST.INFO`, bits 13:6 (R31). -/
def stInfo (st : BitVec 15) : Byte := st.extractLsb' 6 8

/-- `ST.OVF`, bit 14 (R25, R31). -/
def stOvf (st : BitVec 15) : Bool := st.getLsbD 14

/-- `OVF` of an exact value: it is `2^64` or more (R134, R135). -/
def overflows (acc : Nat) : Bool := 2 ^ 64 ≤ acc

/-- One step of the 64-bit accumulator with its sticky bit (R36, R135): the step `ACC * B + digit` wraps, and the bit is
set when the exact step does not fit 64 bits. -/
def stickyStep (base : Nat) (acc : Value × Bool) (d : Byte) : Value × Bool :=
  let exact := acc.1.toNat * base + d.toNat
  (BitVec.ofNat 64 exact, acc.2 || overflows exact)

/-- The accumulator an implementation keeps (R135), over the digits from the left. -/
def stickyAccumulate (base : Nat) (digits : List Byte) : Value × Bool :=
  digits.foldl (stickyStep base) (0, false)

end Sys2Proof.Machine
end

