-- ==== Sys2Proof/Machine/Ops.lean ====
section
/-! DEFINITION. The operations the commands share: table reads, giving a response, raising an error, the configuration
test, and the block's side of the command and response ports. -/

namespace Sys2Proof.Machine

/-! ### Views of the state -/

/-- `DLEN`, the number of valid digits (R22). -/
def State.dlen (s : State) : Nat := s.buf.length

/-- The base `B = ASIZE` (R9, R26). -/
def State.base (s : State) : Nat := s.conf.asize.toNat

/-! ### Tables -/

/-- One entry of a table of bytes by digit value (R12, R28, R30). An index with no architectural entry gives a free
value; no run reads one (R58, notes/assumptions/6). -/
def readTable (name : TableName) (entries : List Byte) (d : Byte) : Byte :=
  (entries[d.toNat]?).getD (Config.unspecifiedEntry name d)

/-- `ALPHA[d]` (R28). -/
def readAlpha (k : Configuration) (d : Byte) : Byte := readTable .alpha k.alpha d

/-- `PERM[d]` (R30). -/
def readPerm (k : Configuration) (d : Byte) : Byte := readTable .perm k.perm d

/-- `INV[d]` (R30). -/
def readInv (k : Configuration) (d : Byte) : Byte := readTable .inv k.inv d

/-- `REV[c]` (R29): `some idx` when character `c` is in the alphabet, `none` when its valid bit is clear. -/
def readRev (k : Configuration) (c : Byte) : Option Byte := (k.rev[c.toNat]?).getD none

/-- Writes `f i` at index `keys[i]`, for `i` from 0 upward (R115, R120). -/
def scatter {α : Type} (f : Nat → α) (init : List α) (keys : List Byte) : List α :=
  keys.zipIdx.foldl (fun table p => table.set p.1.toNat (f p.2)) init

/-! ### Working state and responses -/

/-- Rewrites the digit buffer, and with it `DLEN`. -/
def State.setBuf (s : State) (digits : List Byte) : State := { s with buf := digits }

/-- Ends a command with a response: the status part is copied into `ST` and the response stands on the response port
(R31, R71, R74). -/
def State.respond (s : State) (r : Response) : State := { s with st := r.status, rsp := some r }

/-- `respond OK()` (R14). -/
def respondOk (s : State) : State := s.respond (okResponse 0 false [])

/-- `respond OK(SO)` (R14). -/
def respondText (so : Stream) (s : State) : State := s.respond (okResponse 0 false so)

/-- `respond OK(RVAL, OVF)` of an exact value: `RVAL` is the value modulo `2^64`, `OVF` whether it was `2^64` or more
(R134, R135). -/
def respondValue (acc : Nat) (s : State) : State := s.respond (okResponse (BitVec.ofNat 64 acc) (overflows acc) [])

/-- Taking an exception (R190, R201): the command ends with the error response of its cause, `ST` takes the same
status, and nothing else is saved or changed; there is no vector, no mode and no handler. What a failing `C2D` or `DEC`
does to the buffer before (R202) is in `loadFailed`. There is no return operation (R206): the next command is taken as
after a success, once the host has taken the response (`deliver`). -/
def raise (e : Cause) (s : State) : State := s.respond (errorResponse e)

/-- A failed `C2D` or `DEC`: the buffer was partly overwritten, so `DLEN` becomes 0 (R164, R202). -/
def loadFailed (e : Cause) (s : State) : State := raise e (s.setBuf [])

/-- The test every command but `CFG`, `B64E` and `B64D` makes before anything else (R198). -/
def whenConfigured (s : State) (body : State → State) : Host.Outcome State Fault Refusal :=
  .next (if s.conf.cfgv then body s else raise .notConfigured s)

/-! ### The block's side of its ports -/

/-- Takes the command at the head of the port (R71). What stood on its operand ports and is not consumed, all of it for an
illegal opcode (R77), the unnamed ports for the others (R78), goes away with it: the spec leaves open what becomes of it
(notes/assumptions/16, DESIGN CHOICE, unsafe). -/
def accept (s : State) : State :=
  { s with busy := false, port := { s.port with cmds := s.port.cmds.tail } }

/-- Has taken the command at the head and waits for the rest of its streams (R228). -/
def await (s : State) : State := { s with busy := true }

/-- The host takes the response; the block is ready for the next command (R71, R206). -/
def deliver (r : Response) (s : State) : State :=
  { s with rsp := none, port := { s.port with taken := s.port.taken ++ [r] } }

/-- Reset (R220, R221): the state after reset, a waiting command abandoned without a response. What the host offers
beyond that command, and what it has taken, is the host's (notes/assumptions/4). -/
def resetBlock (s : State) : State :=
  { State.reset with
    port := { s.port with rst := false, cmds := if s.busy then s.port.cmds.tail else s.port.cmds } }

/-- What the block does next. -/
inductive Fetched where
  /-- the host asserts reset (R220) -/
  | reset
  /-- the host takes the last response (R71) -/
  | answered (r : Response)
  /-- no command is offered, or the last response is not taken: the block stands still (R71, R228) -/
  | idle
  /-- the command taken waits for bytes of its streams (R228) -/
  | waiting
  /-- an opcode outside the seventeen (R77) -/
  | illegal (op : Byte)
  /-- a command to run -/
  | run (i : Instr)
deriving DecidableEq, Repr

/-- The command port after the decoder has looked at the command at its head. -/
def fetchCommand (cmds : List Command) : Fetched :=
  match cmds with
  | [] => .idle
  | c :: _ =>
    match decode c with
    | .ok i => .run i
    | .error (.illegalCommand op) => .illegal op
    | .error .awaitingBytes => .waiting

/-- Reset first (R221); then the response of the last command, which must be taken before the next command (R71); then
the command port. -/
def fetch (s : State) : Fetched :=
  if s.port.rst then .reset
  else
    match s.rsp with
    | some r => if s.port.rspReady then .answered r else .idle
    | none => fetchCommand s.port.cmds

end Sys2Proof.Machine
end

