-- ==== Sys2Proof/Machine/Operands.lean ====
section
/-! DEFINITION. How the operands of a command are read (R73): `VAL` as an unsigned 64-bit integer, `LEN` as a signed
32-bit integer, a stream as its bytes in order. The streams themselves are taken off the port by the decoder. -/

namespace Sys2Proof.Machine

/-- `VAL` as an integer in `[0, 2^64)`, bit 0 least significant (R73). -/
def readVal (val : Value) : Nat := val.toNat

/-- `sext(LEN)`: the mathematical integer in `[-2^31, 2^31)` that the two's-complement operand stands for (R11, R73). -/
def readLen (len : Length) : Int := len.toInt

end Sys2Proof.Machine
end

