-- ==== Sys2Proof/Machine/Base64.lean ====
section
/-! DEFINITION. The units `base64_encoder` and `base64_decoder`: the Base64 alphabet, `B64E` and `B64D`
(40_base64.md, R90 to R100). Bit order, value order, ASCII codes and zero fill are what the spec itself took from
general knowledge (93 K1 to K4; notes/assumptions/9). -/

namespace Sys2Proof.Machine

/-- `B64[v]` (R90): `A-Z`, `a-z`, `0-9`, `+`, `/` are 0 to 63, in ASCII. -/
def b64Char (v : BitVec 6) : Byte :=
  let n := v.toNat
  if n < 26 then BitVec.ofNat 8 (0x41 + n)
  else if n < 52 then BitVec.ofNat 8 (0x61 + (n - 26))
  else if n < 62 then BitVec.ofNat 8 (0x30 + (n - 52))
  else if n = 62 then 0x2B
  else 0x2F

/-- `B64INV(c)` (R90): the value of a character of the Base64 alphabet, `none` for the other 192 bytes. -/
def b64Inv (c : Byte) : Option (BitVec 6) :=
  let n := c.toNat
  if 0x41 ≤ n ∧ n ≤ 0x5A then some (BitVec.ofNat 6 (n - 0x41))
  else if 0x61 ≤ n ∧ n ≤ 0x7A then some (BitVec.ofNat 6 (n - 0x61 + 26))
  else if 0x30 ≤ n ∧ n ≤ 0x39 then some (BitVec.ofNat 6 (n - 0x30 + 52))
  else if n = 0x2B then some 62
  else if n = 0x2F then some 63
  else none

/-- The padding character `'='` (R91). -/
def b64Pad : Byte := 0x3D

/-- `G24 = {b0, b1, b2}`, the first byte most significant (R53). -/
def packGroup (b0 b1 b2 : Byte) : BitVec 24 := b0 ++ b1 ++ b2

/-- The character of one sextet of a group, `j` from 0 for `G24[23:18]` to 3 for `G24[5:0]` (R53, R92). -/
def groupChar (g : BitVec 24) (j : Nat) : Byte := b64Char (g.extractLsb' (18 - 6 * j) 6)

/-- The groups of `B64E` (R92): three bytes give four characters; a last group of one or two bytes counts the missing
bytes as zero and gives two or three characters and padding. -/
def encodeText : List Byte → Stream
  | [] => []
  | [b0] =>
    let g := packGroup b0 0 0
    [groupChar g 0, groupChar g 1, b64Pad, b64Pad]
  | [b0, b1] =>
    let g := packGroup b0 b1 0
    [groupChar g 0, groupChar g 1, groupChar g 2, b64Pad]
  | b0 :: b1 :: b2 :: rest =>
    let g := packGroup b0 b1 b2
    [groupChar g 0, groupChar g 1, groupChar g 2, groupChar g 3] ++ encodeText rest

/-- A `'='` with `rest` to its right offends (R97): more than one character follows it (`i < n - 2`), or exactly one
does (`i = n - 2`) and that one is not `'='`. -/
def paddingOffends (rest : Stream) : Bool :=
  match rest with
  | [] => false
  | [last] => last != b64Pad
  | _ => true

/-- The scan of `B64D` from the left (R94, R96, R97, R100): the first offence, else `PADC`, the number of `'='`. -/
def scanText : Stream → Except Cause Nat
  | [] => .ok 0
  | c :: rest =>
    if c = b64Pad then
      if paddingOffends rest then .error .formatPadding
      else
        match scanText rest with
        | .ok padc => .ok (padc + 1)
        | .error e => .error e
    else
      match b64Inv c with
      | some _ => scanText rest
      | none => .error (.formatCharacter c)

/-- The six bits a character of a group stands for: 0 for `'='` (R94). -/
def sextet (c : Byte) : BitVec 6 := (b64Inv c).getD 0

/-- `G24` of four characters, the first in the most significant place (R53, R94). -/
def unpackGroup (c0 c1 c2 c3 : Byte) : BitVec 24 := sextet c0 ++ sextet c1 ++ sextet c2 ++ sextet c3

/-- The first `m` bytes of a group, most significant first (R94). -/
def groupBytes (g : BitVec 24) (m : Nat) : List Byte :=
  [g.extractLsb' 16 8, g.extractLsb' 8 8, g.extractLsb' 0 8].take m

/-- The groups of `B64D` (R94): three bytes a group, `3 - PADC` of the last; the bits that are not delivered are ignored
(R99). -/
def decodeGroups (padc : Nat) : Stream → List Byte
  | c0 :: c1 :: c2 :: c3 :: rest =>
    groupBytes (unpackGroup c0 c1 c2 c3) (if rest = [] then 3 - padc else 3) ++ decodeGroups padc rest
  | _ => []

/-- The function of `B64D`, used by step 5 of `CFG` as well (R94, R116): the length check, the scan, the groups. -/
def decodeText (text : Stream) : Except Cause (List Byte) :=
  if text.length % 4 ≠ 0 then .error .formatLength
  else
    match scanText text with
    | .error e => .error e
    | .ok padc => .ok (decodeGroups padc text)

/-- `B64E` (R92): needs no configuration and never fails; above the domain of R66 it goes on by R92
(notes/assumptions/11). -/
def execB64e (sa : Stream) (s : State) : Host.Outcome State Fault Refusal :=
  .next (respondText (encodeText sa) s)

/-- `B64D` (R94): needs no configuration; on an error nothing but `ST` changes and no byte is delivered (R202, R203). -/
def execB64d (sa : Stream) (s : State) : Host.Outcome State Fault Refusal :=
  match decodeText sa with
  | .ok bytes => .next (respondText bytes s)
  | .error e => .next (raise e s)

end Sys2Proof.Machine
end

