-- ==== Sys2Proof/Machine/CharMapping.lean ====
section
/-! DEFINITION. The unit `digit_to_char_mapper`: `D2C` and `C2D` (44_char_mapping.md, R160 to R165). -/

namespace Sys2Proof.Machine

/-- The string the buffer spells: `ALPHA[BUF[i]]` in order (R161). -/
def bufferText (s : State) : Stream := s.buf.map (readAlpha s.conf)

/-- The digits of a text from index `i` on (R163, R164): the first offence from the left decides, where an index at or
above `NMAX` is the capacity offence and an absent character below it the character offence. -/
def digitsOfText (k : Configuration) : Nat → Stream → Except Cause (List Byte)
  | _, [] => .ok []
  | i, c :: rest =>
    if Config.nmax ≤ i then .error .capacityText
    else
      match readRev k c with
      | none => .error (.characterNotInAlphabet c)
      | some d =>
        match digitsOfText k (i + 1) rest with
        | .ok ds => .ok (d :: ds)
        | .error e => .error e

/-- `C2D` (R163): the buffer takes the digits of the text; on an offence `DLEN` becomes 0 (R164). -/
def execC2d (sa : Stream) (s : State) : Host.Outcome State Fault Refusal :=
  whenConfigured s (fun s =>
    match digitsOfText s.conf 0 sa with
    | .ok ds => respondOk (s.setBuf ds)
    | .error e => loadFailed e s)

/-- `D2C` (R161): the buffer stays. -/
def execD2c (s : State) : Host.Outcome State Fault Refusal :=
  whenConfigured s (fun s => respondText (bufferText s) s)

end Sys2Proof.Machine
end

