-- ==== Sys2Proof/Machine/Construction.lean ====
section
/-! DEFINITION. `CFG`, construction of the configuration (41_construction.md, R110 to R122). -/

namespace Sys2Proof.Machine

/-- Steps 1 and 2 (R111, R112): size of the alphabet, then uniqueness of its characters. -/
def checkAlphabet (sa : Stream) : Option Cause :=
  if sa.length < 2 ∨ 256 < sa.length then some .alphabetSize
  else if ¬ sa.Nodup then some .alphabetDuplicate
  else none

/-- Step 3 and the capacity test after it (R113, R114). -/
def checkMinLength (m : Int) : Option Cause :=
  if m ≤ 0 then some .configMinLength
  else if (Config.nmax : Int) < m then some .capacityMinLength
  else none

/-- Steps 6 to 8 for an alphabet of `size` characters (R117, R118, R119): length, uniqueness, and the range
`[0, size)` by least and greatest value. -/
def checkPermutation (size : Nat) (p : List Byte) : Option Cause :=
  if p.length ≠ size then some .permutationLength
  else if ¬ p.Nodup then some .permutationNotUnique
  else if (p.map BitVec.toNat).min? ≠ some 0 ∨ (p.map BitVec.toNat).max? ≠ some (size - 1) then
    some .permutationOutOfRange
  else none

/-- Step 4 (R115): all 256 entries absent, then `REV[SA[i]] <- {1, i}` for `i` from 0 upward. -/
def buildRev (sa : Stream) : List (Option Byte) :=
  scatter (fun i => some (BitVec.ofNat 8 i)) (List.replicate 256 none) sa

/-- Step 9 (R120): `INV[P[i]] <- i` for `i` from 0 upward; every entry is written exactly once, so what stands there
before is never seen. -/
def buildInv (p : List Byte) : List Byte :=
  scatter (BitVec.ofNat 8) (List.replicate p.length 0) p

/-- The shadow configuration (R36) once all checks have passed. -/
def shadowConfiguration (sa : Stream) (m : Int) (p : List Byte) : Configuration :=
  { cfgv := true
    asize := BitVec.ofNat 9 sa.length
    minlen := m.toNat
    alpha := sa
    rev := buildRev sa
    perm := p
    inv := buildInv p }

/-- The ten checks and builds of R110 in their order (R204): the first test that fails decides. -/
def construct (sa sb : Stream) (len : Length) : Except Cause Configuration :=
  match checkAlphabet sa with
  | some e => .error e
  | none =>
    match checkMinLength (readLen len) with
    | some e => .error e
    | none =>
      match decodeText sb with
      | .error e => .error e
      | .ok p =>
        match checkPermutation sa.length p with
        | some e => .error e
        | none => .ok (shadowConfiguration sa (readLen len) p)

/-- Commit (R121): the whole configuration at once, `CFGV` 1, `DLEN` 0. -/
def commit (k : Configuration) (s : State) : State := { s with conf := k, buf := [] }

/-- `CFG` (R110, R121): all or nothing; on an error nothing but `ST` changes. -/
def execCfg (sa sb : Stream) (len : Length) (s : State) : Host.Outcome State Fault Refusal :=
  match construct sa sb len with
  | .ok k => .next (respondOk (commit k s))
  | .error e => .next (raise e s)

end Sys2Proof.Machine
end

