-- ==== Sys2Proof/Machine/DigitConversion.lean ====
section
/-! DEFINITION. The unit `digit_converter`: `I2D` and `D2I` (42_digit_conversion.md, R130 to R136). -/

namespace Sys2Proof.Machine

/-- The least `k` from `k` upward, at most `fuel` further, with `base^k > v`. -/
def leastPowerAbove (base v : Nat) : Nat → Nat → Nat
  | 0, k => k
  | fuel + 1, k => if v < base ^ k then k else leastPowerAbove base v fuel (k + 1)

/-- `need(v, B)`, the least `k` with `B^k > v` (R130), found in integers; for a 64-bit value and a legal base it is at
most 64. -/
def need (v base : Nat) : Nat := leastPowerAbove base v 64 0

/-- The `n` digits of `v`, most significant first: digit `i` is `(v div B^(n-1-i)) mod B` (R131, R52). -/
def digitsOf (base v n : Nat) : List Byte :=
  (List.range n).map (fun i => BitVec.ofNat 8 (v / base ^ (n - 1 - i) % base))

/-- The value of the digits: from the left, `ACC * B + digit`, over mathematical integers (R134). -/
def digitsValue (base : Nat) (digits : List Byte) : Nat :=
  digits.foldl (fun acc d => acc * base + d.toNat) 0

/-- The body of `I2D` (R131): `max(MINLEN, need(VAL, B))` digits. -/
def i2dBody (v : Nat) (s : State) : State :=
  s.setBuf (digitsOf s.base v (max s.conf.minlen (need v s.base)))

/-- The exact value that `D2I` reads in the buffer (R134). -/
def d2iValue (s : State) : Nat := digitsValue s.base s.buf

/-- `I2D` (R131). -/
def execI2d (val : Value) (s : State) : Host.Outcome State Fault Refusal :=
  whenConfigured s (fun s => respondOk (i2dBody (readVal val) s))

/-- `D2I` (R134): the buffer stays, the value modulo `2^64` and `OVF` are the results. -/
def execD2i (s : State) : Host.Outcome State Fault Refusal :=
  whenConfigured s (fun s => respondValue (d2iValue s) s)

end Sys2Proof.Machine
end

