-- ==== Sys2Proof/Machine/DigitUnits.lean ====
section
/-! DEFINITION. The units `digit_rotator`, `inverse_permutation_applier` and the substitution and cascade stages of
`permutation_pipeline`: `ROTL`, `ROTR`, `PERMF`, `PERMB`, `CASF`, `CASB` (43_digit_units.md, R140 to R152). -/

namespace Sys2Proof.Machine

/-- Rotate left by one place: the first digit moves to the end (R141). -/
def rotateLeft : List Byte → List Byte
  | [] => []
  | d :: rest => rest ++ [d]

/-- Rotate right by one place: the last digit moves to the front (R143). -/
def rotateRight (digits : List Byte) : List Byte :=
  match digits.getLast? with
  | none => []
  | some d => d :: digits.dropLast

/-- Replaces each digit where it stands, through a table (R145, R146, R147). -/
def substitute (table : Byte → Byte) (digits : List Byte) : List Byte := digits.map table

/-- The forward cascade from the accumulator `LAST` (R149, R152): `(old + LAST) mod B` over integers, and `LAST` takes
the new value. -/
def cascadeForward (base : Nat) (last : Byte) : List Byte → List Byte
  | [] => []
  | d :: rest =>
    let new := BitVec.ofNat 8 ((d.toNat + last.toNat) % base)
    new :: cascadeForward base new rest

/-- The backward cascade from the accumulator `LAST` (R150, R152): `(old - LAST + B) mod B` over integers, and `LAST`
takes `T`, the value before the update. -/
def cascadeBackward (base : Nat) (last : Byte) : List Byte → List Byte
  | [] => []
  | t :: rest =>
    BitVec.ofInt 8 (((t.toNat : Int) - (last.toNat : Int) + (base : Int)) % (base : Int)) ::
      cascadeBackward base t rest

/-- The body of `ROTL` (R141). -/
def rotlBody (s : State) : State := s.setBuf (rotateLeft s.buf)

/-- The body of `ROTR` (R143). -/
def rotrBody (s : State) : State := s.setBuf (rotateRight s.buf)

/-- The body of `PERMF` (R145). -/
def permfBody (s : State) : State := s.setBuf (substitute (readPerm s.conf) s.buf)

/-- The body of `PERMB` (R147). -/
def permbBody (s : State) : State := s.setBuf (substitute (readInv s.conf) s.buf)

/-- The body of `CASF` (R149): `LAST` starts at 0. -/
def casfBody (s : State) : State := s.setBuf (cascadeForward s.base 0 s.buf)

/-- The body of `CASB` (R150): `LAST` starts at 0. -/
def casbBody (s : State) : State := s.setBuf (cascadeBackward s.base 0 s.buf)

/-- `ROTL` (R141). -/
def execRotl (s : State) : Host.Outcome State Fault Refusal :=
  whenConfigured s (fun s => respondOk (rotlBody s))

/-- `ROTR` (R143). -/
def execRotr (s : State) : Host.Outcome State Fault Refusal :=
  whenConfigured s (fun s => respondOk (rotrBody s))

/-- `PERMF` (R145). -/
def execPermf (s : State) : Host.Outcome State Fault Refusal :=
  whenConfigured s (fun s => respondOk (permfBody s))

/-- `PERMB` (R147). -/
def execPermb (s : State) : Host.Outcome State Fault Refusal :=
  whenConfigured s (fun s => respondOk (permbBody s))

/-- `CASF` (R149). -/
def execCasf (s : State) : Host.Outcome State Fault Refusal :=
  whenConfigured s (fun s => respondOk (casfBody s))

/-- `CASB` (R150). -/
def execCasb (s : State) : Host.Outcome State Fault Refusal :=
  whenConfigured s (fun s => respondOk (casbBody s))

end Sys2Proof.Machine
end

