-- ==== Sys2Proof/Machine/Pipeline.lean ====
section
/-! DEFINITION. The unit `permutation_pipeline` and the macro commands `PIPF`, `PIPB`, `ENC`, `DEC` (45_pipeline.md,
R170 to R183). -/

namespace Sys2Proof.Machine

/-- The hidden counters of the round sequencer (R24): `RND`, the round, and `STEP`, 0 to 4, the place in the round. They
exist only while a macro command runs. -/
structure Sequencer where
  rnd : Nat
  step : Fin 5
deriving DecidableEq, Repr

/-- The counters after one step: `STEP` goes 0, 1, 2, 3, 4 and back to 0 with `RND` increased by one (R24). -/
def Sequencer.advance (q : Sequencer) : Sequencer :=
  { rnd := if q.step = 4 then q.rnd + 1 else q.rnd, step := q.step + 1 }

/-- The micro-operation of a place in a forward round (R170, R171): `ROTL`, `PERMF`, `ROTL`, `CASF`, `ROTL`. -/
def forwardStep (place : Fin 5) (s : State) : State :=
  match place with
  | 0 => rotlBody s
  | 1 => permfBody s
  | 2 => rotlBody s
  | 3 => casfBody s
  | 4 => rotlBody s

/-- The micro-operation of a place in a backward round (R170, R174): `ROTR`, `CASB`, `ROTR`, `PERMB`, `ROTR`. -/
def backwardStep (place : Fin 5) (s : State) : State :=
  match place with
  | 0 => rotrBody s
  | 1 => casbBody s
  | 2 => rotrBody s
  | 3 => permbBody s
  | 4 => rotrBody s

/-- `count` steps of the sequencer, each the micro-operation of the place its counters name (R24, R173). -/
def runSequencer (micro : Fin 5 → State → State) : Nat → Sequencer → State → State
  | 0, _, s => s
  | count + 1, q, s => runSequencer micro count q.advance (micro q.step s)

/-- The body of `PIPF` (R171): `n` rounds, `n` the `DLEN` at the start, so `5 * n` micro-operations (R170, R173). -/
def pipfBody (s : State) : State := runSequencer forwardStep (5 * s.dlen) { rnd := 0, step := 0 } s

/-- The body of `PIPB` (R174): `n` rounds, `n` the `DLEN` at the start. -/
def pipbBody (s : State) : State := runSequencer backwardStep (5 * s.dlen) { rnd := 0, step := 0 } s

/-- `PIPF` (R171): `CFGV` is tested once, before the first round. -/
def execPipf (s : State) : Host.Outcome State Fault Refusal :=
  whenConfigured s (fun s => respondOk (pipfBody s))

/-- `PIPB` (R174): `CFGV` is tested once, before the first round. -/
def execPipb (s : State) : Host.Outcome State Fault Refusal :=
  whenConfigured s (fun s => respondOk (pipbBody s))

/-- `ENC` (R177): the bodies of `I2D`, `PIPF` and `D2C` in this order, one response; the buffer stays as the rounds left
it (R181). -/
def execEnc (val : Value) (s : State) : Host.Outcome State Fault Refusal :=
  whenConfigured s (fun s =>
    let t := pipfBody (i2dBody (readVal val) s)
    respondText (bufferText t) t)

/-- `DEC` (R179): the bodies of `C2D`, `PIPB` and `D2I` in this order, one response; an offence of the text is found
before any round and leaves `DLEN` 0 (R164, R183). -/
def execDec (sa : Stream) (s : State) : Host.Outcome State Fault Refusal :=
  whenConfigured s (fun s =>
    match digitsOfText s.conf 0 sa with
    | .ok ds =>
      let t := pipbBody (s.setBuf ds)
      respondValue (d2iValue t) t
    | .error e => loadFailed e s)

end Sys2Proof.Machine
end

