-- ==== Sys2Proof/Machine/Dispatch.lean ====
section
/-! DEFINITION. One arm per command: the meaning of each of the seventeen rows of R75. -/

namespace Sys2Proof.Machine

def exec (i : Instr) (s : State) : Host.Outcome State Fault Refusal :=
  match i with
  | .cfg sa sb len => Sys2Proof.Machine.execCfg sa sb len s
  | .enc val => Sys2Proof.Machine.execEnc val s
  | .dec sa => Sys2Proof.Machine.execDec sa s
  | .b64e sa => Sys2Proof.Machine.execB64e sa s
  | .b64d sa => Sys2Proof.Machine.execB64d sa s
  | .pipf => Sys2Proof.Machine.execPipf s
  | .pipb => Sys2Proof.Machine.execPipb s
  | .i2d val => Sys2Proof.Machine.execI2d val s
  | .d2i => Sys2Proof.Machine.execD2i s
  | .c2d sa => Sys2Proof.Machine.execC2d sa s
  | .d2c => Sys2Proof.Machine.execD2c s
  | .rotl => Sys2Proof.Machine.execRotl s
  | .rotr => Sys2Proof.Machine.execRotr s
  | .permf => Sys2Proof.Machine.execPermf s
  | .permb => Sys2Proof.Machine.execPermb s
  | .casf => Sys2Proof.Machine.execCasf s
  | .casb => Sys2Proof.Machine.execCasb s

end Sys2Proof.Machine
end

