-- ==== Sys2Proof/Machine/Step.lean ====
section
/-! DEFINITION. One step of the block: at most one command, whole (R56, R71), or what its ports make it do between two
commands. -/

namespace Sys2Proof.Machine

/-- One step (R60, R71): reset, the taking of the last response, or the command at the head of the port. Every answer
is a next state. -/
def step (s : State) : Host.Outcome State Fault Refusal :=
  match fetch s with
  | .reset => .next (resetBlock s)
  | .answered r => .next (deliver r s)
  | .idle => .next s
  | .waiting => .next (await s)
  | .illegal op => .next (raise (.illegalCommand op) (accept s))
  | .run i => exec i (accept s)

/-- `s` with the command of a table word offered at the head of the command port, no reset asserted and no response left
to take, so that the next step runs it (notes/assumptions/1, 8). -/
def State.withFetchWord (s : State) (nbits w : Nat) : State :=
  { s with
    busy := false
    rsp := none
    port := { s.port with rst := false, cmds := commandOfTableWord nbits w :: s.port.cmds } }

end Sys2Proof.Machine
end

