-- ==== Sys2Proof/Safety.lean ====
section
/-! DEFINITION. What a safe state is, and the terms claims are written in: the invariants of R22, R23, R31, R32 and
R191, the shape of an answer, and sequences of commands. -/

namespace Sys2Proof.Machine

/-! ### Invariants -/

/-- The invariants of a committed configuration (R32, items 1 to 5), with the lengths of its tables (R28 to R30). -/
structure Configuration.Legal (k : Configuration) : Prop where
  size_least : 2 ≤ k.asize.toNat
  size_most : k.asize.toNat ≤ 256
  minlen_least : 1 ≤ k.minlen
  minlen_most : k.minlen ≤ Config.nmax
  alpha_length : k.alpha.length = k.asize.toNat
  alpha_distinct : k.alpha.Nodup
  rev_length : k.rev.length = 256
  rev_present : ∀ i c, k.alpha[i]? = some c → readRev k c = some (BitVec.ofNat 8 i)
  rev_absent : ∀ c, c ∉ k.alpha → readRev k c = none
  perm_length : k.perm.length = k.asize.toNat
  perm_onto : ∀ d : Byte, d ∈ k.perm ↔ d.toNat < k.asize.toNat
  inv_length : k.inv.length = k.asize.toNat
  inv_perm : ∀ d : Byte, d.toNat < k.asize.toNat → readInv k (readPerm k d) = d
  perm_inv : ∀ d : Byte, d.toNat < k.asize.toNat → readPerm k (readInv k d) = d

/-- A configured block with the invariants of R22, R23 and R32 in force. -/
structure State.Ready (s : State) : Prop where
  configured : s.conf.cfgv = true
  legal : s.conf.Legal
  digits_below : ∀ d ∈ s.buf, d.toNat < s.base
  dlen_most : s.dlen ≤ Config.nmax

/-- The pairs of code and sub-code that R191 lists. -/
def statusPairs : List (BitVec 4 × BitVec 2) :=
  [(0, 0), (1, 1), (1, 2), (2, 1), (3, 1), (3, 2), (3, 3), (4, 1), (4, 2), (4, 3), (5, 0), (8, 0), (9, 1), (9, 2), (10, 0)]

/-- A status that R191 and R25 allow: a listed pair of code and sub-code, `INFO` 0 or `0x3D` where the table says so,
and `OVF` only beside `OK`. -/
def LegalStatus (st : BitVec 15) : Prop :=
  (stCode st, stSub st) ∈ statusPairs ∧
  ((stCode st, stSub st) = (3, 3) → stInfo st = 0x3D) ∧
  ((stCode st, stSub st) ∉ [((3 : BitVec 4), (2 : BitVec 2)), (3, 3), (5, 0), (10, 0)] → stInfo st = 0) ∧
  (stOvf st = true → stCode st = 0)

/-- The invariant every step keeps: without a configuration there is none of its contents and no digit (R23, R37);
with one, R22, R23 and R32 hold; `ST` is a status of R191 and the copy of the last response (R31); an error response
delivers no result (R203). -/
structure State.Inv (s : State) : Prop where
  unconfigured : s.conf.cfgv = false → s.conf = Configuration.reset ∧ s.buf = []
  configured : s.conf.cfgv = true → s.Ready
  status : LegalStatus s.st
  copy : ∀ r, s.rsp = some r → s.st = r.status
  nothing_on_error : ∀ r, s.rsp = some r → r.code ≠ 0 → r.rval = 0 ∧ r.so = []

/-! ### Answers -/

/-- From `s`, a command has ended in `t` with the success response and these results (R74): `ST` is `OK` with `OVF`,
the response stands on the port, and the host's side is untouched. The configuration and the buffer are not spoken of. -/
def AnswersOk (s t : State) (rval : Value) (ovf : Bool) (so : Stream) : Prop :=
  t.st = (if ovf then 0x4000#15 else 0x0000#15) ∧
  t.rsp = some { code := 0, sub := 0, info := 0, ovf := ovf, rval := rval, so := so } ∧
  t.busy = s.busy ∧ t.port = s.port

/-- From `s`, a command has ended in `t` with an error response (R201, R203): `ST` is that status, no value, no output,
no overflow, the configuration and the host's side untouched. The buffer is not spoken of. -/
def AnswersError (s t : State) (code : BitVec 4) (sub : BitVec 2) (info : Byte) : Prop :=
  stCode t.st = code ∧ stSub t.st = sub ∧ stInfo t.st = info ∧ stOvf t.st = false ∧
  t.rsp = some { code := code, sub := sub, info := info, ovf := false, rval := 0, so := [] } ∧
  t.conf = s.conf ∧ t.busy = s.busy ∧ t.port = s.port

/-- Without a configuration the command answers `NotConfigured` and changes nothing but `ST` (R198). -/
def RefusesUnconfigured (i : Instr) (s : State) : Prop :=
  s.conf.cfgv = false → ∃ t, exec i s = .next t ∧ AnswersError s t 8 0 0 ∧ t.buf = s.buf

/-- The commands that need no configuration (R198, R222). -/
def worksUnconfigured : Instr → Bool
  | .cfg _ _ _ => true
  | .b64e _ => true
  | .b64d _ => true
  | .enc _ => false
  | .dec _ => false
  | .pipf => false
  | .pipb => false
  | .i2d _ => false
  | .d2i => false
  | .c2d _ => false
  | .d2c => false
  | .rotl => false
  | .rotr => false
  | .permf => false
  | .permb => false
  | .casf => false
  | .casb => false

/-- The commands that load the buffer from a text (R202). -/
def loadsText : Instr → Bool
  | .c2d _ => true
  | .dec _ => true
  | .cfg _ _ _ => false
  | .b64e _ => false
  | .b64d _ => false
  | .enc _ => false
  | .pipf => false
  | .pipb => false
  | .i2d _ => false
  | .d2i => false
  | .d2c => false
  | .rotl => false
  | .rotr => false
  | .permf => false
  | .permb => false
  | .casf => false
  | .casb => false

/-- The error pairs a command may answer (R197). -/
def mayRaise : Instr → List (BitVec 4 × BitVec 2)
  | .cfg _ _ _ => [(1, 1), (1, 2), (2, 1), (3, 1), (3, 2), (3, 3), (4, 1), (4, 2), (4, 3), (9, 1)]
  | .b64d _ => [(3, 1), (3, 2), (3, 3)]
  | .b64e _ => []
  | .enc _ => [(8, 0)]
  | .i2d _ => [(8, 0)]
  | .dec _ => [(5, 0), (8, 0), (9, 2)]
  | .c2d _ => [(5, 0), (8, 0), (9, 2)]
  | .pipf => [(8, 0)]
  | .pipb => [(8, 0)]
  | .d2i => [(8, 0)]
  | .d2c => [(8, 0)]
  | .rotl => [(8, 0)]
  | .rotr => [(8, 0)]
  | .permf => [(8, 0)]
  | .permb => [(8, 0)]
  | .casf => [(8, 0)]
  | .casb => [(8, 0)]

/-! ### Commands on the port and in sequence -/

/-- The ports of a command that its format names, every other port zero or empty (R72). -/
def namedPorts (f : Format) (c : Command) : Command :=
  match f with
  | .N => bareCommand c.op
  | .V => { bareCommand c.op with val := c.val }
  | .S => { bareCommand c.op with saLen := c.saLen, sa := c.sa }
  | .C => { c with val := 0 }

/-- A stream that the command's format names has fewer bytes than declared (R228). -/
def shortOfBytes (f : Format) (c : Command) : Prop :=
  match f with
  | .N => False
  | .V => False
  | .S => c.sa.length < c.saLen.toNat
  | .C => c.sa.length < c.saLen.toNat ∨ c.sb.length < c.sbLen.toNat

/-- The commands of a list run one after the other, each on the state the one before left (R60, R81). -/
def runAll : List Instr → State → Host.Outcome State Fault Refusal
  | [], s => .next s
  | i :: rest, s =>
    match exec i s with
    | .next t => runAll rest t
    | .fault f => .fault f
    | .refused r => .refused r

/-- The micro-operations of a forward round (R170). -/
def forwardRound : List Instr := [.rotl, .permf, .rotl, .casf, .rotl]

/-- The micro-operations of a backward round (R170). -/
def backwardRound : List Instr := [.rotr, .casb, .rotr, .permb, .rotr]

/-! ### Base64 texts and digit values, as the rules word them -/

/-- The character at index `i` does not offend (R96, R97): it is in the Base64 alphabet, or it is `'='` in the last
place, or `'='` in the second-last place with `'='` after it. -/
def GoodAt (text : Stream) (i : Nat) : Prop :=
  ∀ c, text[i]? = some c →
    (b64Inv c).isSome = true ∨
    (c = 0x3D#8 ∧ (i + 1 = text.length ∨ (i + 2 = text.length ∧ text[i + 1]? = some 0x3D#8)))

/-- A text `B64D` accepts (R95 to R97). -/
def Accepted (text : Stream) : Prop := text.length % 4 = 0 ∧ ∀ i, GoodAt text i

/-- The six bits of the character at index `i`: 0 for `'='` (R94). -/
def sextetAt (text : Stream) (i : Nat) : BitVec 6 := ((text[i]?).bind b64Inv).getD 0

/-- The value of a digit array in a base as R132 and R135 word it: the sum of `d_i * B^(n-1-i)`. -/
def weightedSum (base : Nat) (digits : List Byte) : Nat :=
  ∑ i ∈ Finset.range digits.length, (digits.getD i 0).toNat * base ^ (digits.length - 1 - i)

end Sys2Proof.Machine
end

