-- ==== Sys2Proof/Certificates/Slice0/Obligations.lean ====
section
/-! DEFINITION. The statements for the provers. Each docstring names the rule of the spec it formalises; where it says
"the model's choice" it names the log entry. -/

open Sys2Proof Sys2Proof.Machine

/-! ### The command word and the command port -/

/-- R70, R72, R73, R75: every command the port can carry is read back whole, with every operand at every value its
format admits. -/
def Obligations.DecodeOfEncodeIsTheCommand : Prop :=
  ∀ i : Instr, i.wf = true → decode (encode i) = .ok i

/-- R72, R75: a complete command that decodes is the encoding of what it decodes to, on the word and on every port its
format names. -/
def Obligations.EncodeOfDecodeIsTheNamedPorts : Prop :=
  ∀ (c : Command) (i : Instr), c.wf = true → decode c = .ok i →
    ∃ row, findRow c.op = some row ∧ encode i = namedPorts row.format c

/-- R78: a port that the format does not name is not read, and no complete command with a listed opcode is illegal. -/
def Obligations.UnnamedPortsAreNotRead : Prop :=
  (∀ (c c' : Command) (row : OpcodeRow), findRow c.op = some row →
    namedPorts row.format c = namedPorts row.format c' → decode c = decode c') ∧
  (∀ (c : Command) (row : OpcodeRow), findRow c.op = some row → c.wf = true → ∃ i, decode c = .ok i)

/-- R75: words of the opcode map, one of each format, with their operands zero or empty; and words outside it. -/
def Obligations.TableWordsDecode : Prop :=
  decodeTableWord 8 0x01 = some (.cfg [] [] 0) ∧
  decodeTableWord 8 0x02 = some (.enc 0) ∧
  decodeTableWord 8 0x03 = some (.dec []) ∧
  decodeTableWord 8 0x04 = some (.b64e []) ∧
  decodeTableWord 8 0x09 = some .pipb ∧
  decodeTableWord 8 0x10 = some (.i2d 0) ∧
  decodeTableWord 8 0x14 = some .rotl ∧
  decodeTableWord 8 0x19 = some .casb ∧
  decodeTableWord 8 0x00 = none ∧
  decodeTableWord 8 0x06 = none ∧
  decodeTableWord 8 0x1A = none ∧
  decodeTableWord 8 0xFF = none

/-- R60, R71: when no reset is asserted and the last response is taken, a step is the meaning of the command at the head
of the port, on the state in which the block has taken that command. That stream bytes the command did not read go away
with it is the model's choice (notes/assumptions/3 and notes/assumptions/16). -/
def Obligations.StepRunsTheDecodedCommand : Prop :=
  ∀ (s : State) (c : Command) (rest : List Command) (i : Instr),
    s.port.rst = false → s.rsp = none → s.port.cmds = c :: rest → decode c = .ok i →
    step s = exec i { s with busy := false, port := { s.port with cmds := rest } }

/-- R77, R200: an opcode outside the seventeen answers `IllegalCommand` with `INFO = OP`, whatever stands on the operand
ports and whether or not the block is configured, and changes nothing but `ST`; those opcodes are 239. That what stands on
those ports, which the rules say is not consumed, goes away with the command is the model's choice
(notes/assumptions/16). -/
def Obligations.IllegalOpcodeAnswersIllegalCommand : Prop :=
  (∀ op : Byte, findRow op = none ↔
    op.toNat = 0 ∨ op.toNat = 0x06 ∨ op.toNat = 0x07 ∨ (0x0A ≤ op.toNat ∧ op.toNat ≤ 0x0F) ∨ 0x1A ≤ op.toNat) ∧
  ((List.range 256).filter (fun n => (findRow (BitVec.ofNat 8 n)).isNone)).length = 239 ∧
  (∀ (s : State) (c : Command) (rest : List Command),
    s.port.rst = false → s.rsp = none → s.port.cmds = c :: rest → findRow c.op = none →
    ∃ t, step s = .next t ∧
      AnswersError { s with busy := false, port := { s.port with cmds := rest } } t 10 0 c.op ∧ t.buf = s.buf)

/-- R228: a command whose stream has fewer bytes than declared keeps the block waiting, for any number of steps, with no
response and no error; and while the host does not take a response the block takes no command, for any number of
steps. That waiting is a state of its own, `busy`, which an unconfigured block enters as well, is the model's choice
(notes/assumptions/3). -/
def Obligations.BlockWaitsForTheHost : Prop :=
  (∀ (s : State) (c : Command) (rest : List Command) (row : OpcodeRow) (k : Nat),
    s.port.rst = false → s.rsp = none → s.port.cmds = c :: rest → findRow c.op = some row → shortOfBytes row.format c →
    core.run (k + 1) s = .next { s with busy := true }) ∧
  (∀ (s : State) (r : Response) (k : Nat),
    s.port.rst = false → s.rsp = some r → s.port.rspReady = false → core.run k s = .next s)

/-- R71, R206: a host that takes responses gets the one response of a command, unchanged, and the block is ready for the
next command after an error as after a success; nothing else changes. That taking is a step of its own is the model's
choice (notes/assumptions/2). -/
def Obligations.ResponseIsDelivered : Prop :=
  ∀ (s : State) (r : Response),
    s.port.rst = false → s.rsp = some r → s.port.rspReady = true →
    step s = .next { s with rsp := none, port := { s.port with taken := s.port.taken ++ [r] } }

/-- R221: reset gives the state of R37 from every state; a command that waits is abandoned and no response is
given for it. The clauses on the commands still offered and on the responses already taken are the model's choice
(notes/assumptions/4). -/
def Obligations.ResetAbandonsTheCommand : Prop :=
  ∀ s : State, s.port.rst = true →
    ∃ t, step s = .next t ∧ t.conf.cfgv = false ∧ t.conf.asize = 0 ∧ t.conf.minlen = 0 ∧ t.dlen = 0 ∧ t.st = 0 ∧
      t.busy = false ∧ t.rsp = none ∧ t.port.taken = s.port.taken ∧
      (s.busy = true → t.port.cmds = s.port.cmds.tail) ∧ (s.busy = false → t.port.cmds = s.port.cmds)

/-- R37: the values that R37 gives for reset. -/
def Obligations.ResetStateValues : Prop :=
  State.reset.conf.cfgv = false ∧ State.reset.conf.asize = 0 ∧ State.reset.conf.minlen = 0 ∧ State.reset.dlen = 0 ∧
  stCode State.reset.st = 0 ∧ stSub State.reset.st = 0 ∧ stInfo State.reset.st = 0 ∧ stOvf State.reset.st = false

/-! ### Rules over all commands -/

/-- R22, R23, R31, R32, R191, R203 (R23 and R32 the spec derives from its command rules): the invariant `State.Inv` is
kept by every step, from every state that has it. Its clause on an unconfigured block, `conf = Configuration.reset`, says
more than R31: R37 leaves the tables' contents there unspecified, and that they are the empty tables is the model's choice
(notes/assumptions/6). -/
def Obligations.EveryStepKeepsTheInvariants : Prop :=
  ∀ s t : State, s.Inv → step s = .next t → t.Inv

/-- The invariant holds right after reset (R23, R37). What the unspecified tables hold there is the model's choice
(notes/assumptions/6). -/
def Obligations.InvariantsHoldAtReset : Prop := State.reset.Inv

/-- R230 (which the spec derives from R173 and R228): every command whose operands are there ends, with a response. -/
def Obligations.EveryCommandEnds : Prop :=
  ∀ (i : Instr) (s : State), ∃ t r, exec i s = .next t ∧ t.rsp = some r ∧ t.st = r.status

/-- R33: no command but `CFG` writes any member of the configuration, and a failed `CFG` writes none of it. -/
def Obligations.ConfigurationIsImmutable : Prop :=
  ∀ (i : Instr) (s t : State), exec i s = .next t →
    ((∀ sa sb len, i ≠ .cfg sa sb len) ∨ stCode t.st ≠ 0) → t.conf = s.conf

/-- R202, R203: a command that fails keeps the configuration and the host's side, delivers no output and no value, and
keeps the buffer, except that `C2D` and `DEC` with `CharacterNotInAlphabet` or `CapacityExceeded` leave `DLEN = 0`. -/
def Obligations.FailedCommandsLeaveNoResult : Prop :=
  ∀ (i : Instr) (s t : State), exec i s = .next t → stCode t.st ≠ 0 →
    AnswersError s t (stCode t.st) (stSub t.st) (stInfo t.st) ∧
    (if loadsText i = true ∧ (stCode t.st = 5 ∨ stCode t.st = 9) then t.dlen = 0 else t.buf = s.buf)

/-- R197, the blanks of its table: a command answers no error but those the table gives it. -/
def Obligations.CommandsRaiseOnlyTheirErrors : Prop :=
  ∀ (i : Instr) (s t : State), exec i s = .next t → stCode t.st ≠ 0 → (stCode t.st, stSub t.st) ∈ mayRaise i

/-- R25, R207: `OVF` is set by no command but `D2I` and `DEC`, and only beside `OK`. -/
def Obligations.OverflowFlagOnlyFromConversions : Prop :=
  ∀ (i : Instr) (s t : State), exec i s = .next t → stOvf t.st = true →
    stCode t.st = 0 ∧ (i = .d2i ∨ ∃ text, i = .dec text)

/-- R31, R206: no command reads `ST` or what an earlier response left; every command writes all of `ST`. -/
def Obligations.NoCommandReadsTheStatus : Prop :=
  ∀ (i : Instr) (s : State) (st : BitVec 15) (r : Option Response), exec i { s with st := st, rsp := r } = exec i s

/-- R198: without a configuration every command but `CFG`, `B64E` and `B64D` answers `NotConfigured` and changes nothing
but `ST`. -/
def Obligations.UnconfiguredCommandsAreRefused : Prop :=
  ∀ (i : Instr) (s : State), worksUnconfigured i = false → RefusesUnconfigured i s

/-! ### Base64 -/

/-- R90, R91 (the codes and the value order are what the spec took from general knowledge, K1, K2,
notes/assumptions/9): the table of 64 characters, its inverse, and the padding character outside it. -/
def Obligations.Base64AlphabetIsTheTable : Prop :=
  (∀ v : BitVec 6, b64Char v =
    BitVec.ofNat 8 (("ABCDEFGHIJKLMNOPQRSTUVWXYZabcdefghijklmnopqrstuvwxyz0123456789+/".toList.map Char.toNat).getD v.toNat 0)) ∧
  (∀ (c : Byte) (v : BitVec 6), b64Inv c = some v ↔ b64Char v = c) ∧
  b64Inv 0x3D = none

/-- R92, R93 (bit order, value order and zero fill are what the spec took from general knowledge, K2 to K4,
notes/assumptions/9): `B64E` answers the text of its groups, each of four characters, the bytes missing in the last group
counting as zero and its missing characters as `'='`; the length is `4 * ceil(L/3)`; nothing but `ST` is written. -/
def Obligations.B64eWritesTheGroups : Prop :=
  ∀ (sa : Stream) (s : State), ∃ t so, exec (.b64e sa) s = .next t ∧ AnswersOk s t 0 false so ∧
    t.conf = s.conf ∧ t.buf = s.buf ∧ (encode (.b64e sa)).op = 0x04 ∧
    so.length = 4 * ((sa.length + 2) / 3) ∧
    so.count 0x3D#8 = (3 - sa.length % 3) % 3 ∧
    ∀ g, 3 * g < sa.length →
      so[4 * g]? = some (b64Char ((sa.getD (3 * g) 0 ++ sa.getD (3 * g + 1) 0 ++ sa.getD (3 * g + 2) 0).extractLsb' 18 6)) ∧
      so[4 * g + 1]? = some (b64Char ((sa.getD (3 * g) 0 ++ sa.getD (3 * g + 1) 0 ++ sa.getD (3 * g + 2) 0).extractLsb' 12 6)) ∧
      so[4 * g + 2]? = some (if 3 * g + 1 < sa.length then
        b64Char ((sa.getD (3 * g) 0 ++ sa.getD (3 * g + 1) 0 ++ sa.getD (3 * g + 2) 0).extractLsb' 6 6) else 0x3D) ∧
      so[4 * g + 3]? = some (if 3 * g + 2 < sa.length then
        b64Char ((sa.getD (3 * g) 0 ++ sa.getD (3 * g + 1) 0 ++ sa.getD (3 * g + 2) 0).extractLsb' 0 6) else 0x3D)

/-- R94, R98 (bit order and value order as the spec took them from general knowledge, K2, K3, notes/assumptions/9): on a text of the accepted shapes `B64D` answers `(n/4)*3 - PADC` bytes, those of the groups of 24 bits;
nothing but `ST` is written. -/
def Obligations.B64dReadsTheGroups : Prop :=
  ∀ (text : Stream) (s : State), Accepted text →
    ∃ t so, exec (.b64d text) s = .next t ∧ AnswersOk s t 0 false so ∧ t.conf = s.conf ∧ t.buf = s.buf ∧
      (encode (.b64d text)).op = 0x05 ∧
      text.count 0x3D#8 ≤ 2 ∧
      so.length = text.length / 4 * 3 - text.count 0x3D#8 ∧
      ∀ q j, j < 3 → 3 * q + j < so.length →
        so[3 * q + j]? = some ((sextetAt text (4 * q) ++ sextetAt text (4 * q + 1) ++ sextetAt text (4 * q + 2) ++
          sextetAt text (4 * q + 3)).extractLsb' (16 - 8 * j) 8)

/-- R95, R96, R97, R100: a text of a length that is no multiple of 4 answers `InvalidFormat.length`; else the first
character from the left that offends answers `InvalidFormat.padding` if it is `'='` and `InvalidFormat.character` if
not, with itself in `INFO`; nothing but `ST` is written. -/
def Obligations.B64dReportsTheFirstOffence : Prop :=
  ∀ (text : Stream) (s : State),
    (text.length % 4 ≠ 0 → ∃ t, exec (.b64d text) s = .next t ∧ AnswersError s t 3 1 0 ∧ t.buf = s.buf) ∧
    (text.length % 4 = 0 → ∀ i c, text[i]? = some c → ¬ GoodAt text i → (∀ j, j < i → GoodAt text j) →
      ∃ t, exec (.b64d text) s = .next t ∧ AnswersError s t 3 (if c = 0x3D#8 then 3 else 2) c ∧ t.buf = s.buf)

/-- R99: the bits of the last group that are not delivered are ignored, whatever they are. -/
def Obligations.B64dIgnoresDiscardedBits : Prop :=
  ∀ (pre : Stream) (a b b' c c' : Byte) (v v' : BitVec 6) (s : State), pre.length % 4 = 0 →
    (b64Inv b = some v → b64Inv b' = some v' → v.toNat / 16 = v'.toNat / 16 →
      exec (.b64d (pre ++ [a, b, 0x3D, 0x3D])) s = exec (.b64d (pre ++ [a, b', 0x3D, 0x3D])) s) ∧
    (b64Inv c = some v → b64Inv c' = some v' → v.toNat / 4 = v'.toNat / 4 →
      exec (.b64d (pre ++ [a, b, c, 0x3D])) s = exec (.b64d (pre ++ [a, b, c', 0x3D])) s)

/-- R101 (which the spec derives from R92, R93, R94, R98): for every byte sequence `x`, `B64D(B64E(x))` succeeds and gives `x`. -/
def Obligations.Base64RoundTrip : Prop :=
  ∀ (x : Stream) (s : State), ∃ t r, exec (.b64e x) s = .next t ∧ t.rsp = some r ∧
    ∀ s' : State, ∃ u, exec (.b64d r.so) s' = .next u ∧ AnswersOk s' u 0 false x

/-! ### Construction -/

/-- R115, R120, and the success of R110 and R121: on operands that pass every test `CFG` commits the whole configuration, empties the
buffer and answers `OK`. The bytes of the permutation are those `B64D` reads in `SB` (R116). -/
def Obligations.CfgCommitsValidOperands : Prop :=
  ∀ (sa sb : Stream) (len : Length) (p : List Byte) (s : State),
    2 ≤ sa.length → sa.length ≤ 256 → sa.Nodup → 1 ≤ len.toInt → len.toInt ≤ (Config.nmax : Int) →
    decodeText sb = .ok p → p.length = sa.length → p.Nodup → (∀ d ∈ p, d.toNat < sa.length) →
    ∃ t, exec (.cfg sa sb len) s = .next t ∧ AnswersOk s t 0 false [] ∧ t.buf = [] ∧
      (encode (.cfg sa sb len)).op = 0x01 ∧
      t.conf.cfgv = true ∧ t.conf.asize.toNat = sa.length ∧ (t.conf.minlen : Int) = len.toInt ∧
      t.conf.alpha = sa ∧ t.conf.perm = p ∧ t.conf.inv.length = sa.length ∧
      (∀ i c, sa[i]? = some c → readRev t.conf c = some (BitVec.ofNat 8 i)) ∧
      (∀ c, c ∉ sa → readRev t.conf c = none) ∧
      (∀ i d, p[i]? = some d → t.conf.inv[d.toNat]? = some (BitVec.ofNat 8 i))

/-- R111 to R114, R117 to R119, in the order of R110: the first test that fails, in the order of the steps, decides the error, and
nothing but `ST` is written. The error of a malformed `SB` is the one `B64D` answers for it. -/
def Obligations.CfgReportsTheFirstFailure : Prop :=
  ∀ (sa sb : Stream) (len : Length) (s : State),
    ((sa.length < 2 ∨ 256 < sa.length) →
      ∃ t, exec (.cfg sa sb len) s = .next t ∧ AnswersError s t 1 1 0 ∧ t.buf = s.buf) ∧
    (2 ≤ sa.length → sa.length ≤ 256 → ¬ sa.Nodup →
      ∃ t, exec (.cfg sa sb len) s = .next t ∧ AnswersError s t 1 2 0 ∧ t.buf = s.buf) ∧
    (2 ≤ sa.length → sa.length ≤ 256 → sa.Nodup → len.toInt ≤ 0 →
      ∃ t, exec (.cfg sa sb len) s = .next t ∧ AnswersError s t 2 1 0 ∧ t.buf = s.buf) ∧
    (2 ≤ sa.length → sa.length ≤ 256 → sa.Nodup → (Config.nmax : Int) < len.toInt →
      ∃ t, exec (.cfg sa sb len) s = .next t ∧ AnswersError s t 9 1 0 ∧ t.buf = s.buf) ∧
    (2 ≤ sa.length → sa.length ≤ 256 → sa.Nodup → 1 ≤ len.toInt → len.toInt ≤ (Config.nmax : Int) →
      (¬ Accepted sb → ∃ t, exec (.cfg sa sb len) s = .next t ∧ exec (.b64d sb) s = .next t ∧ stCode t.st = 3) ∧
      (∀ p, decodeText sb = .ok p →
        (p.length ≠ sa.length →
          ∃ t, exec (.cfg sa sb len) s = .next t ∧ AnswersError s t 4 1 0 ∧ t.buf = s.buf) ∧
        (p.length = sa.length → ¬ p.Nodup →
          ∃ t, exec (.cfg sa sb len) s = .next t ∧ AnswersError s t 4 2 0 ∧ t.buf = s.buf) ∧
        (p.length = sa.length → p.Nodup →
          ¬ ((∃ d ∈ p, d.toNat = 0) ∧ (∃ d ∈ p, d.toNat = sa.length - 1) ∧ ∀ d ∈ p, d.toNat ≤ sa.length - 1) →
          ∃ t, exec (.cfg sa sb len) s = .next t ∧ AnswersError s t 4 3 0 ∧ t.buf = s.buf)))

/-- R121, and R32, which the spec derives from R111 to R121: `CFG` is all or nothing: it commits a legal configuration
(R32) and empties the buffer, or it writes nothing but `ST`. -/
def Obligations.CfgIsAllOrNothing : Prop :=
  ∀ (sa sb : Stream) (len : Length) (s t : State), exec (.cfg sa sb len) s = .next t →
    (stCode t.st = 0 ∧ t.conf.cfgv = true ∧ t.conf.Legal ∧ t.buf = []) ∨
    (stCode t.st ≠ 0 ∧ t.conf = s.conf ∧ t.buf = s.buf)

/-- R122 (which the spec derives from R117 to R119): when the tests before it passed, `out_of_range` is reported exactly when the lengths match, the values differ
and some value is at least the alphabet size; never for an alphabet of 256. -/
def Obligations.OutOfRangeIsAValueAtOrAboveTheSize : Prop :=
  ∀ (sa sb : Stream) (len : Length) (p : List Byte) (s t : State),
    2 ≤ sa.length → sa.length ≤ 256 → sa.Nodup → 1 ≤ len.toInt → len.toInt ≤ (Config.nmax : Int) →
    decodeText sb = .ok p → exec (.cfg sa sb len) s = .next t →
    ((stCode t.st = 4 ∧ stSub t.st = 3) ↔ (p.length = sa.length ∧ p.Nodup ∧ ∃ d ∈ p, sa.length ≤ d.toNat)) ∧
    (sa.length = 256 → ¬ (stCode t.st = 4 ∧ stSub t.st = 3))

/-! ### The digit converter -/

/-- R130: `need(v, B)` is the least `k` with `B^k > v`, at most 64 for a 64-bit value, exact at the powers of the base
and at `2^64 - 1`. -/
def Obligations.NeedIsTheLeastPower : Prop :=
  (∀ v B : Nat, v < 2 ^ 64 → 2 ≤ B → B ≤ 256 →
    v < B ^ need v B ∧ (∀ k, v < B ^ k → need v B ≤ k) ∧ need v B ≤ 64) ∧
  (∀ k B : Nat, 2 ≤ B → B ≤ 256 → B ^ k < 2 ^ 64 → need (B ^ k) B = k + 1 ∧ need (B ^ k - 1) B = k) ∧
  need (2 ^ 64 - 1) 2 = 64 ∧ need (2 ^ 64 - 1) 10 = 20 ∧ need (2 ^ 64 - 1) 256 = 8

/-- R131: `I2D` writes `max(MINLEN, need(VAL, B))` digits, digit `i` being `(VAL div B^(n-1-i)) mod B`; nothing else but
`ST` is written. -/
def Obligations.I2dWritesTheDigits : Prop :=
  ∀ (v : Value) (s : State), RefusesUnconfigured (.i2d v) s ∧
    (s.conf.cfgv = true → ∃ t, exec (.i2d v) s = .next t ∧ AnswersOk s t 0 false [] ∧ t.conf = s.conf ∧
      (encode (.i2d v)).op = 0x10 ∧
      t.dlen = max s.conf.minlen (need v.toNat s.base) ∧
      ∀ i, i < t.dlen → t.buf[i]? = some (BitVec.ofNat 8 (v.toNat / s.base ^ (t.dlen - 1 - i) % s.base)))

/-- R132 (which the spec derives from R131): the digits of `I2D` are those that repeated division by the base gives, the last quotient is 0, and they are
the only digits below the base whose weighted sum is the value. -/
def Obligations.I2dIsRepeatedDivision : Prop :=
  ∀ (v : Value) (s : State), s.Ready →
    ∃ t, exec (.i2d v) s = .next t ∧
      (∀ j, j < t.dlen → t.buf[t.dlen - 1 - j]? = some (BitVec.ofNat 8 ((fun r => r / s.base)^[j] v.toNat % s.base))) ∧
      (fun r => r / s.base)^[t.dlen] v.toNat = 0 ∧
      weightedSum s.base t.buf = v.toNat ∧
      ∀ ds : List Byte, ds.length = t.dlen → (∀ d ∈ ds, d.toNat < s.base) → weightedSum s.base ds = v.toNat → ds = t.buf

/-- R133 (which the spec derives from R130, R131 and R8): `I2D` always fits the buffer, and the digit count is never below `MINLEN`. -/
def Obligations.I2dFitsTheBuffer : Prop :=
  ∀ (v : Value) (s : State), s.Ready →
    ∃ t, exec (.i2d v) s = .next t ∧ stCode t.st = 0 ∧ s.conf.minlen ≤ t.dlen ∧ t.dlen ≤ Config.nmax ∧ t.Ready

/-- R134: `D2I` answers the weighted sum of the digits modulo `2^64`, with `OVF` exactly when the sum is `2^64` or
more; the buffer and the configuration stay. -/
def Obligations.D2iAnswersTheWeightedSum : Prop :=
  ∀ s : State, RefusesUnconfigured .d2i s ∧
    (s.conf.cfgv = true → ∃ t, exec .d2i s = .next t ∧ t.conf = s.conf ∧ t.buf = s.buf ∧ (encode .d2i).op = 0x11 ∧
      AnswersOk s t (BitVec.ofNat 64 (weightedSum s.base s.buf)) (decide (2 ^ 64 ≤ weightedSum s.base s.buf)) [])

/-- R135: the 64-bit accumulator that wraps at each step, with a sticky bit set when a step does not fit, agrees with
the exact definition of `RVAL` and `OVF`. -/
def Obligations.StickyAccumulatorAgrees : Prop :=
  ∀ s : State, s.conf.cfgv = true → 2 ≤ s.base →
    ∃ t, exec .d2i s = .next t ∧
      AnswersOk s t (stickyAccumulate s.base s.buf).1 (stickyAccumulate s.base s.buf).2 []

/-- R136 (which the spec derives from R131, R132, R134): `D2I` after `I2D v` gives `v` without overflow; and `I2D` after `D2I` restores the buffer when its length was
`max(MINLEN, need(RVAL, B))` and `OVF` was 0. -/
def Obligations.ConversionsUndoEachOther : Prop :=
  ∀ s : State, s.Ready →
    (∀ v : Value, ∃ t u, exec (.i2d v) s = .next t ∧ exec .d2i t = .next u ∧ AnswersOk s u v false []) ∧
    (∀ v : Value, (∃ t, exec .d2i s = .next t ∧ AnswersOk s t v false []) →
      s.dlen = max s.conf.minlen (need v.toNat s.base) → ∃ t, exec (.i2d v) s = .next t ∧ t.buf = s.buf)

/-! ### The digit units -/

/-- R141: `ROTL` gives `BUF[i] <- old[(i + 1) mod n]`; length and configuration stay. -/
def Obligations.RotlMovesTheFirstDigitToTheEnd : Prop :=
  ∀ s : State, RefusesUnconfigured .rotl s ∧
    (s.conf.cfgv = true → ∃ t, exec .rotl s = .next t ∧ AnswersOk s t 0 false [] ∧ t.conf = s.conf ∧
      (encode .rotl).op = 0x14 ∧ t.dlen = s.dlen ∧ ∀ i, i < s.dlen → t.buf[i]? = s.buf[(i + 1) % s.dlen]?)

/-- R143: `ROTR` gives `BUF[i] <- old[(i - 1) mod n]`; length and configuration stay. -/
def Obligations.RotrMovesTheLastDigitToTheFront : Prop :=
  ∀ s : State, RefusesUnconfigured .rotr s ∧
    (s.conf.cfgv = true → ∃ t, exec .rotr s = .next t ∧ AnswersOk s t 0 false [] ∧ t.conf = s.conf ∧
      (encode .rotr).op = 0x15 ∧ t.dlen = s.dlen ∧
      ∀ i, i < s.dlen → t.buf[i]? = s.buf[(i + (s.dlen - 1)) % s.dlen]?)

/-- R144 (which the spec derives from R141 and R143): `ROTR` undoes `ROTL`, `ROTL` undoes `ROTR`, and `n` rotations in one direction are the identity. -/
def Obligations.RotationsUndoEachOther : Prop :=
  ∀ s : State, s.conf.cfgv = true →
    (∃ t, runAll [.rotl, .rotr] s = .next t ∧ t.buf = s.buf) ∧
    (∃ t, runAll [.rotr, .rotl] s = .next t ∧ t.buf = s.buf) ∧
    (∃ t, runAll (List.replicate s.dlen .rotl) s = .next t ∧ t.buf = s.buf) ∧
    (∃ t, runAll (List.replicate s.dlen .rotr) s = .next t ∧ t.buf = s.buf)

/-- R145: `PERMF` replaces every digit `d`, where it stands, by `PERM[d]`; length and configuration stay. -/
def Obligations.PermfSubstitutesThroughPerm : Prop :=
  ∀ s : State, RefusesUnconfigured .permf s ∧
    (s.conf.cfgv = true → ∃ t, exec .permf s = .next t ∧ AnswersOk s t 0 false [] ∧ t.conf = s.conf ∧
      (encode .permf).op = 0x16 ∧ t.dlen = s.dlen ∧
      ∀ (i : Nat) (d : Byte), s.buf[i]? = some d → d.toNat < s.conf.perm.length → t.buf[i]? = s.conf.perm[d.toNat]?)

/-- R147: `PERMB` replaces every digit `d`, where it stands, by `INV[d]`; length and configuration stay. -/
def Obligations.PermbSubstitutesThroughInv : Prop :=
  ∀ s : State, RefusesUnconfigured .permb s ∧
    (s.conf.cfgv = true → ∃ t, exec .permb s = .next t ∧ AnswersOk s t 0 false [] ∧ t.conf = s.conf ∧
      (encode .permb).op = 0x17 ∧ t.dlen = s.dlen ∧
      ∀ (i : Nat) (d : Byte), s.buf[i]? = some d → d.toNat < s.conf.inv.length → t.buf[i]? = s.conf.inv[d.toNat]?)

/-- R148 (which the spec derives from R145, R147 and R32): `PERMB` undoes `PERMF` and `PERMF` undoes `PERMB`. -/
def Obligations.SubstitutionsUndoEachOther : Prop :=
  ∀ s : State, s.Ready →
    (∃ t, runAll [.permf, .permb] s = .next t ∧ t.buf = s.buf) ∧
    (∃ t, runAll [.permb, .permf] s = .next t ∧ t.buf = s.buf)

/-- R149: `CASF` gives the prefix sums modulo the base; length and configuration stay. -/
def Obligations.CasfGivesPrefixSums : Prop :=
  ∀ s : State, RefusesUnconfigured .casf s ∧
    (s.conf.cfgv = true → 2 ≤ s.base → s.base ≤ 256 → ∃ t, exec .casf s = .next t ∧ AnswersOk s t 0 false [] ∧
      t.conf = s.conf ∧ (encode .casf).op = 0x18 ∧ t.dlen = s.dlen ∧
      ∀ i, i < s.dlen →
        (t.buf[i]?).map BitVec.toNat = some ((∑ j ∈ Finset.range (i + 1), (s.buf.getD j 0).toNat) % s.base))

/-- R150: `CASB` gives the adjacent differences modulo the base, with nothing before the first digit; length and
configuration stay. -/
def Obligations.CasbGivesAdjacentDifferences : Prop :=
  ∀ s : State, RefusesUnconfigured .casb s ∧
    (s.conf.cfgv = true → 2 ≤ s.base → s.base ≤ 256 → ∃ t, exec .casb s = .next t ∧ AnswersOk s t 0 false [] ∧
      t.conf = s.conf ∧ (encode .casb).op = 0x19 ∧ t.dlen = s.dlen ∧
      ∀ i, i < s.dlen →
        (t.buf[i]?).map (fun d => (d.toNat : Int)) =
          some ((((s.buf.getD i 0).toNat : Int) - (if i = 0 then 0 else ((s.buf.getD (i - 1) 0).toNat : Int))) % (s.base : Int)))

/-- R151 (which the spec derives from R149 and R150): `CASB` undoes `CASF` and `CASF` undoes `CASB`, for every buffer of digits below the base. -/
def Obligations.CascadesUndoEachOther : Prop :=
  ∀ s : State, s.Ready →
    (∃ t, runAll [.casf, .casb] s = .next t ∧ t.buf = s.buf) ∧
    (∃ t, runAll [.casb, .casf] s = .next t ∧ t.buf = s.buf)

/-! ### The character mapper -/

/-- R161, and R162, which the spec derives from R161: `D2C` answers one character a digit, `ALPHA[BUF[i]]`, all members of the alphabet; buffer and
configuration stay. -/
def Obligations.D2cSpellsTheBuffer : Prop :=
  ∀ s : State, RefusesUnconfigured .d2c s ∧
    (s.Ready → ∃ t so, exec .d2c s = .next t ∧ AnswersOk s t 0 false so ∧ t.conf = s.conf ∧ t.buf = s.buf ∧
      (encode .d2c).op = 0x13 ∧ so.length = s.dlen ∧ (∀ c ∈ so, c ∈ s.conf.alpha) ∧
      ∀ (i : Nat) (d : Byte), s.buf[i]? = some d → so[i]? = s.conf.alpha[d.toNat]?)

/-- R163, where it succeeds: a text of at most `NMAX` characters, all in the alphabet, is loaded through `REV`; its length is not held
against `MINLEN`; the configuration stays. -/
def Obligations.C2dLoadsTheText : Prop :=
  ∀ (text : Stream) (s : State), RefusesUnconfigured (.c2d text) s ∧
    (s.conf.cfgv = true → text.length ≤ Config.nmax → (∀ c ∈ text, (readRev s.conf c).isSome = true) →
      ∃ t, exec (.c2d text) s = .next t ∧ AnswersOk s t 0 false [] ∧ t.conf = s.conf ∧
        (encode (.c2d text)).op = 0x12 ∧ t.dlen = text.length ∧
        ∀ (i : Nat) (c : Byte), text[i]? = some c → t.buf[i]? = readRev s.conf c)

/-- R164, and the failures of R163: the first offence from the left decides: a character that is not in the alphabet at an index
below `NMAX`, else more than `NMAX` characters; either leaves `DLEN = 0` and the configuration as it was. -/
def Obligations.C2dReportsTheFirstOffence : Prop :=
  ∀ (text : Stream) (s : State), s.conf.cfgv = true →
    (∀ (i : Nat) (c : Byte), i < Config.nmax → text[i]? = some c → readRev s.conf c = none →
      (∀ (j : Nat) (d : Byte), j < i → text[j]? = some d → (readRev s.conf d).isSome = true) →
      ∃ t, exec (.c2d text) s = .next t ∧ AnswersError s t 5 0 c ∧ t.dlen = 0) ∧
    (Config.nmax < text.length →
      (∀ (j : Nat) (d : Byte), j < Config.nmax → text[j]? = some d → (readRev s.conf d).isSome = true) →
      ∃ t, exec (.c2d text) s = .next t ∧ AnswersError s t 9 2 0 ∧ t.dlen = 0)

/-- R165 (which the spec derives from R161, R163 and R32): `C2D` of the string that `D2C` gave restores the buffer, and `D2C` after a successful `C2D` gives the text
back. -/
def Obligations.MapperRoundTrips : Prop :=
  ∀ s : State, s.Ready →
    (∃ t r u, exec .d2c s = .next t ∧ t.rsp = some r ∧ exec (.c2d r.so) t = .next u ∧ u.buf = s.buf ∧ stCode u.st = 0) ∧
    (∀ (text : Stream) (t : State), exec (.c2d text) s = .next t → stCode t.st = 0 →
      ∃ u, exec .d2c t = .next u ∧ AnswersOk s u 0 false text)

/-! ### The pipeline and the macro commands -/

/-- R24: after `k` steps the sequencer stands in round `k div 5` at place `k mod 5`. -/
def Obligations.SequencerCountsRoundsAndPlaces : Prop :=
  ∀ k : Nat, (Sequencer.advance^[k] { rnd := 0, step := 0 }).rnd = k / 5 ∧
    (Sequencer.advance^[k] { rnd := 0, step := 0 }).step.val = k % 5

/-- R171, as R172 words it: `PIPF` gives the state that the commands of `DLEN` forward rounds, issued one by one, give;
`DLEN` and the configuration stay. -/
def Obligations.PipfIsItsMicroOperations : Prop :=
  ∀ s : State, RefusesUnconfigured .pipf s ∧
    (s.conf.cfgv = true → ∃ t u, exec .pipf s = .next t ∧ AnswersOk s t 0 false [] ∧ t.conf = s.conf ∧
      (encode .pipf).op = 0x08 ∧ t.dlen = s.dlen ∧
      runAll (List.replicate s.dlen forwardRound).flatten s = .next u ∧ t.buf = u.buf)

/-- R174: `PIPB` gives the state that the commands of `DLEN` backward rounds, issued one by one, give; `DLEN` and
the configuration stay. -/
def Obligations.PipbIsItsMicroOperations : Prop :=
  ∀ s : State, RefusesUnconfigured .pipb s ∧
    (s.conf.cfgv = true → ∃ t u, exec .pipb s = .next t ∧ AnswersOk s t 0 false [] ∧ t.conf = s.conf ∧
      (encode .pipb).op = 0x09 ∧ t.dlen = s.dlen ∧
      runAll (List.replicate s.dlen backwardRound).flatten s = .next u ∧ t.buf = u.buf)

/-- R175 (which the spec derives from R171, R174, R144, R148, R151): `PIPB` undoes `PIPF` and `PIPF` undoes `PIPB`, for every buffer under one configuration. -/
def Obligations.PipelinesUndoEachOther : Prop :=
  ∀ s : State, s.Ready →
    (∃ t, runAll [.pipf, .pipb] s = .next t ∧ t.buf = s.buf ∧ t.conf = s.conf) ∧
    (∃ t, runAll [.pipb, .pipf] s = .next t ∧ t.buf = s.buf ∧ t.conf = s.conf)

/-- R177: `ENC v` is `I2D v`, `PIPF`, `D2C`, configured or not: the same state and the same response. A configured
block answers `OK` for every 64-bit value. -/
def Obligations.EncIsItsExpansion : Prop :=
  ∀ (v : Value) (s : State), RefusesUnconfigured (.enc v) s ∧ (encode (.enc v)).op = 0x02 ∧
    exec (.enc v) s = runAll [.i2d v, .pipf, .d2c] s ∧
    (s.conf.cfgv = true → ∃ t so, exec (.enc v) s = .next t ∧ AnswersOk s t 0 false so ∧ t.conf = s.conf)

/-- R178 (which the spec derives from R177, R181 and R133): a configured block encodes every 64-bit value, to `max(MINLEN, need(VAL, B))` characters of the alphabet; the
configuration stays. -/
def Obligations.EncAlwaysAnswersAString : Prop :=
  ∀ (v : Value) (s : State), s.Ready →
    ∃ t so, exec (.enc v) s = .next t ∧ AnswersOk s t 0 false so ∧ t.conf = s.conf ∧ t.dlen = so.length ∧
      so.length = max s.conf.minlen (need v.toNat s.base) ∧ ∀ c ∈ so, c ∈ s.conf.alpha

/-- R179: `DEC t` is `C2D t` where that fails, and `C2D t`, `PIPB`, `D2I` where it succeeds: the same state and the
same response. -/
def Obligations.DecIsItsExpansion : Prop :=
  ∀ (text : Stream) (s : State), RefusesUnconfigured (.dec text) s ∧ (encode (.dec text)).op = 0x03 ∧
    ∃ u, exec (.c2d text) s = .next u ∧
      (stCode u.st ≠ 0 → exec (.dec text) s = .next u) ∧
      (stCode u.st = 0 → exec (.dec text) s = runAll [.c2d text, .pipb, .d2i] s)

/-- R179, R180: a configured block decodes every text of at most `NMAX` characters of the alphabet, whatever its length
is against `MINLEN`, to the value of the digits it leaves in the buffer, modulo `2^64` with `OVF`; the configuration
stays. -/
def Obligations.DecAlwaysAnswersAValue : Prop :=
  ∀ (text : Stream) (s : State), s.Ready → text.length ≤ Config.nmax → (∀ c ∈ text, c ∈ s.conf.alpha) →
    ∃ t, exec (.dec text) s = .next t ∧ t.conf = s.conf ∧ t.dlen = text.length ∧
      AnswersOk s t (BitVec.ofNat 64 (weightedSum s.base t.buf)) (decide (2 ^ 64 ≤ weightedSum s.base t.buf)) []

/-- R181: what `ENC` and `DEC` answer and leave depends on their operand and the configuration, not on the buffer they
find. -/
def Obligations.MacrosIgnoreTheBufferTheyFind : Prop :=
  ∀ (i : Instr) (s : State) (digits : List Byte), ((∃ v, i = .enc v) ∨ ∃ text, i = .dec text) →
    s.conf.cfgv = true → exec i { s with buf := digits } = exec i s

/-- R182 (which the spec derives from R175, R177, R179, R136 and R165): under one configuration, `DEC` of the string that `ENC v` gave succeeds with `RVAL = v` and `OVF = 0`, for
every 64-bit `v`. -/
def Obligations.DecodeOfEncodedValueIsTheValue : Prop :=
  ∀ (v : Value) (s : State), s.Ready →
    ∃ t r, exec (.enc v) s = .next t ∧ t.rsp = some r ∧
      ∀ s' : State, s'.conf = s.conf → ∃ u, exec (.dec r.so) s' = .next u ∧ AnswersOk s' u v false []
end

