-- ==== Sys2Proof/Laws/State.lean ====
section
/-! SUPPORT. One lemma for each field under each update of the state, so that no later proof unfolds a record. -/

namespace Sys2Proof.Machine

@[simp] theorem setBuf_conf (s : State) (ds : List Byte) : (s.setBuf ds).conf = s.conf := rfl
@[simp] theorem setBuf_buf (s : State) (ds : List Byte) : (s.setBuf ds).buf = ds := rfl
@[simp] theorem setBuf_st (s : State) (ds : List Byte) : (s.setBuf ds).st = s.st := rfl
@[simp] theorem setBuf_busy (s : State) (ds : List Byte) : (s.setBuf ds).busy = s.busy := rfl
@[simp] theorem setBuf_rsp (s : State) (ds : List Byte) : (s.setBuf ds).rsp = s.rsp := rfl
@[simp] theorem setBuf_port (s : State) (ds : List Byte) : (s.setBuf ds).port = s.port := rfl

@[simp] theorem respond_conf (s : State) (r : Response) : (s.respond r).conf = s.conf := rfl
@[simp] theorem respond_buf (s : State) (r : Response) : (s.respond r).buf = s.buf := rfl
@[simp] theorem respond_st (s : State) (r : Response) : (s.respond r).st = r.status := rfl
@[simp] theorem respond_busy (s : State) (r : Response) : (s.respond r).busy = s.busy := rfl
@[simp] theorem respond_rsp (s : State) (r : Response) : (s.respond r).rsp = some r := rfl
@[simp] theorem respond_port (s : State) (r : Response) : (s.respond r).port = s.port := rfl

@[simp] theorem respondOk_conf (s : State) : (respondOk s).conf = s.conf := rfl
@[simp] theorem respondOk_buf (s : State) : (respondOk s).buf = s.buf := rfl
@[simp] theorem respondOk_st (s : State) : (respondOk s).st = (okResponse 0 false []).status := rfl
@[simp] theorem respondOk_busy (s : State) : (respondOk s).busy = s.busy := rfl
@[simp] theorem respondOk_rsp (s : State) : (respondOk s).rsp = some (okResponse 0 false []) := rfl
@[simp] theorem respondOk_port (s : State) : (respondOk s).port = s.port := rfl

@[simp] theorem respondText_conf (so : Stream) (s : State) : (respondText so s).conf = s.conf := rfl
@[simp] theorem respondText_buf (so : Stream) (s : State) : (respondText so s).buf = s.buf := rfl
@[simp] theorem respondText_st (so : Stream) (s : State) : (respondText so s).st = (okResponse 0 false so).status := rfl
@[simp] theorem respondText_busy (so : Stream) (s : State) : (respondText so s).busy = s.busy := rfl
@[simp] theorem respondText_rsp (so : Stream) (s : State) : (respondText so s).rsp = some (okResponse 0 false so) := rfl
@[simp] theorem respondText_port (so : Stream) (s : State) : (respondText so s).port = s.port := rfl

@[simp] theorem respondValue_conf (acc : Nat) (s : State) : (respondValue acc s).conf = s.conf := rfl
@[simp] theorem respondValue_buf (acc : Nat) (s : State) : (respondValue acc s).buf = s.buf := rfl
@[simp] theorem respondValue_st (acc : Nat) (s : State) : (respondValue acc s).st = (okResponse (BitVec.ofNat 64 acc) (overflows acc) []).status := rfl
@[simp] theorem respondValue_busy (acc : Nat) (s : State) : (respondValue acc s).busy = s.busy := rfl
@[simp] theorem respondValue_rsp (acc : Nat) (s : State) : (respondValue acc s).rsp = some (okResponse (BitVec.ofNat 64 acc) (overflows acc) []) := rfl
@[simp] theorem respondValue_port (acc : Nat) (s : State) : (respondValue acc s).port = s.port := rfl

@[simp] theorem raise_conf (e : Cause) (s : State) : (raise e s).conf = s.conf := rfl
@[simp] theorem raise_buf (e : Cause) (s : State) : (raise e s).buf = s.buf := rfl
@[simp] theorem raise_st (e : Cause) (s : State) : (raise e s).st = (errorResponse e).status := rfl
@[simp] theorem raise_busy (e : Cause) (s : State) : (raise e s).busy = s.busy := rfl
@[simp] theorem raise_rsp (e : Cause) (s : State) : (raise e s).rsp = some (errorResponse e) := rfl
@[simp] theorem raise_port (e : Cause) (s : State) : (raise e s).port = s.port := rfl

@[simp] theorem loadFailed_conf (e : Cause) (s : State) : (loadFailed e s).conf = s.conf := rfl
@[simp] theorem loadFailed_buf (e : Cause) (s : State) : (loadFailed e s).buf = [] := rfl
@[simp] theorem loadFailed_st (e : Cause) (s : State) : (loadFailed e s).st = (errorResponse e).status := rfl
@[simp] theorem loadFailed_busy (e : Cause) (s : State) : (loadFailed e s).busy = s.busy := rfl
@[simp] theorem loadFailed_rsp (e : Cause) (s : State) : (loadFailed e s).rsp = some (errorResponse e) := rfl
@[simp] theorem loadFailed_port (e : Cause) (s : State) : (loadFailed e s).port = s.port := rfl

@[simp] theorem commit_conf (k : Configuration) (s : State) : (commit k s).conf = k := rfl
@[simp] theorem commit_buf (k : Configuration) (s : State) : (commit k s).buf = [] := rfl
@[simp] theorem commit_st (k : Configuration) (s : State) : (commit k s).st = s.st := rfl
@[simp] theorem commit_busy (k : Configuration) (s : State) : (commit k s).busy = s.busy := rfl
@[simp] theorem commit_rsp (k : Configuration) (s : State) : (commit k s).rsp = s.rsp := rfl
@[simp] theorem commit_port (k : Configuration) (s : State) : (commit k s).port = s.port := rfl

@[simp] theorem accept_conf (s : State) : (accept s).conf = s.conf := rfl
@[simp] theorem accept_buf (s : State) : (accept s).buf = s.buf := rfl
@[simp] theorem accept_st (s : State) : (accept s).st = s.st := rfl
@[simp] theorem accept_busy (s : State) : (accept s).busy = false := rfl
@[simp] theorem accept_rsp (s : State) : (accept s).rsp = s.rsp := rfl
@[simp] theorem accept_port (s : State) : (accept s).port = { s.port with cmds := s.port.cmds.tail } := rfl

@[simp] theorem await_conf (s : State) : (await s).conf = s.conf := rfl
@[simp] theorem await_buf (s : State) : (await s).buf = s.buf := rfl
@[simp] theorem await_st (s : State) : (await s).st = s.st := rfl
@[simp] theorem await_busy (s : State) : (await s).busy = true := rfl
@[simp] theorem await_rsp (s : State) : (await s).rsp = s.rsp := rfl
@[simp] theorem await_port (s : State) : (await s).port = s.port := rfl

@[simp] theorem deliver_conf (r : Response) (s : State) : (deliver r s).conf = s.conf := rfl
@[simp] theorem deliver_buf (r : Response) (s : State) : (deliver r s).buf = s.buf := rfl
@[simp] theorem deliver_st (r : Response) (s : State) : (deliver r s).st = s.st := rfl
@[simp] theorem deliver_busy (r : Response) (s : State) : (deliver r s).busy = s.busy := rfl
@[simp] theorem deliver_rsp (r : Response) (s : State) : (deliver r s).rsp = none := rfl
@[simp] theorem deliver_port (r : Response) (s : State) : (deliver r s).port = { s.port with taken := s.port.taken ++ [r] } := rfl

@[simp] theorem resetBlock_conf (s : State) : (resetBlock s).conf = Configuration.reset := rfl
@[simp] theorem resetBlock_buf (s : State) : (resetBlock s).buf = [] := rfl
@[simp] theorem resetBlock_st (s : State) : (resetBlock s).st = 0 := rfl
@[simp] theorem resetBlock_busy (s : State) : (resetBlock s).busy = false := rfl
@[simp] theorem resetBlock_rsp (s : State) : (resetBlock s).rsp = none := rfl
@[simp] theorem resetBlock_port (s : State) : (resetBlock s).port = { s.port with rst := false, cmds := if s.busy then s.port.cmds.tail else s.port.cmds } := rfl

@[simp] theorem rotlBody_conf (s : State) : (rotlBody s).conf = s.conf := rfl
@[simp] theorem rotlBody_buf (s : State) : (rotlBody s).buf = rotateLeft s.buf := rfl
@[simp] theorem rotlBody_st (s : State) : (rotlBody s).st = s.st := rfl
@[simp] theorem rotlBody_busy (s : State) : (rotlBody s).busy = s.busy := rfl
@[simp] theorem rotlBody_rsp (s : State) : (rotlBody s).rsp = s.rsp := rfl
@[simp] theorem rotlBody_port (s : State) : (rotlBody s).port = s.port := rfl

@[simp] theorem rotrBody_conf (s : State) : (rotrBody s).conf = s.conf := rfl
@[simp] theorem rotrBody_buf (s : State) : (rotrBody s).buf = rotateRight s.buf := rfl
@[simp] theorem rotrBody_st (s : State) : (rotrBody s).st = s.st := rfl
@[simp] theorem rotrBody_busy (s : State) : (rotrBody s).busy = s.busy := rfl
@[simp] theorem rotrBody_rsp (s : State) : (rotrBody s).rsp = s.rsp := rfl
@[simp] theorem rotrBody_port (s : State) : (rotrBody s).port = s.port := rfl

@[simp] theorem permfBody_conf (s : State) : (permfBody s).conf = s.conf := rfl
@[simp] theorem permfBody_buf (s : State) : (permfBody s).buf = substitute (readPerm s.conf) s.buf := rfl
@[simp] theorem permfBody_st (s : State) : (permfBody s).st = s.st := rfl
@[simp] theorem permfBody_busy (s : State) : (permfBody s).busy = s.busy := rfl
@[simp] theorem permfBody_rsp (s : State) : (permfBody s).rsp = s.rsp := rfl
@[simp] theorem permfBody_port (s : State) : (permfBody s).port = s.port := rfl

@[simp] theorem permbBody_conf (s : State) : (permbBody s).conf = s.conf := rfl
@[simp] theorem permbBody_buf (s : State) : (permbBody s).buf = substitute (readInv s.conf) s.buf := rfl
@[simp] theorem permbBody_st (s : State) : (permbBody s).st = s.st := rfl
@[simp] theorem permbBody_busy (s : State) : (permbBody s).busy = s.busy := rfl
@[simp] theorem permbBody_rsp (s : State) : (permbBody s).rsp = s.rsp := rfl
@[simp] theorem permbBody_port (s : State) : (permbBody s).port = s.port := rfl

@[simp] theorem casfBody_conf (s : State) : (casfBody s).conf = s.conf := rfl
@[simp] theorem casfBody_buf (s : State) : (casfBody s).buf = cascadeForward s.base 0 s.buf := rfl
@[simp] theorem casfBody_st (s : State) : (casfBody s).st = s.st := rfl
@[simp] theorem casfBody_busy (s : State) : (casfBody s).busy = s.busy := rfl
@[simp] theorem casfBody_rsp (s : State) : (casfBody s).rsp = s.rsp := rfl
@[simp] theorem casfBody_port (s : State) : (casfBody s).port = s.port := rfl

@[simp] theorem casbBody_conf (s : State) : (casbBody s).conf = s.conf := rfl
@[simp] theorem casbBody_buf (s : State) : (casbBody s).buf = cascadeBackward s.base 0 s.buf := rfl
@[simp] theorem casbBody_st (s : State) : (casbBody s).st = s.st := rfl
@[simp] theorem casbBody_busy (s : State) : (casbBody s).busy = s.busy := rfl
@[simp] theorem casbBody_rsp (s : State) : (casbBody s).rsp = s.rsp := rfl
@[simp] theorem casbBody_port (s : State) : (casbBody s).port = s.port := rfl

end Sys2Proof.Machine
end

