-- ==== Sys2Proof/Laws/Ops.lean ====
section
/-! SUPPORT. For each shared operation one lemma that says all it can do. -/

namespace Sys2Proof.Machine

/-! ### The status register -/

@[simp] theorem stCode_status (r : Response) : stCode r.status = r.code := by
  apply BitVec.eq_of_getLsbD_eq
  intro i hi
  simp only [stCode, Response.status, BitVec.getLsbD_extractLsb', BitVec.getLsbD_append]
  simp [hi]

@[simp] theorem stSub_status (r : Response) : stSub r.status = r.sub := by
  apply BitVec.eq_of_getLsbD_eq
  intro i hi
  simp only [stSub, Response.status, BitVec.getLsbD_extractLsb', BitVec.getLsbD_append]
  simp [hi]

@[simp] theorem stInfo_status (r : Response) : stInfo r.status = r.info := by
  apply BitVec.eq_of_getLsbD_eq
  intro i hi
  simp only [stInfo, Response.status, BitVec.getLsbD_extractLsb', BitVec.getLsbD_append]
  have h6 : ¬ 6 + i < 4 := by omega
  have h2 : ¬ 6 + i - 4 < 2 := by omega
  have e : 6 + i - 4 - 2 = i := by omega
  simp [hi, h6, h2, e]

@[simp] theorem stOvf_status (r : Response) : stOvf r.status = r.ovf := by
  simp only [stOvf, Response.status, BitVec.getLsbD_append]
  simp

/-- `ST` is its four fields (R31): two values with the same fields are the same. -/
theorem status_ext {a b : BitVec 15} (hc : stCode a = stCode b) (hs : stSub a = stSub b) (hi : stInfo a = stInfo b)
    (ho : stOvf a = stOvf b) : a = b := by
  apply BitVec.eq_of_getLsbD_eq
  intro i hlt
  have bit {w : Nat} {x y : BitVec w} (h : x = y) (j : Nat) : x.getLsbD j = y.getLsbD j := by rw [h]
  by_cases h4 : i < 4
  · simpa [stCode, BitVec.getLsbD_extractLsb', h4] using bit hc i
  · by_cases h6 : i < 6
    · have e : 4 + (i - 4) = i := by omega
      have l : i - 4 < 2 := by omega
      simpa [stSub, BitVec.getLsbD_extractLsb', e, l] using bit hs (i - 4)
    · by_cases h14 : i < 14
      · have e : 6 + (i - 6) = i := by omega
        have l : i - 6 < 8 := by omega
        simpa [stInfo, BitVec.getLsbD_extractLsb', e, l] using bit hi (i - 6)
      · obtain rfl : i = 14 := by omega
        exact ho

/-- The status of a success response: zero but for `OVF` (R31, R191). -/
theorem okResponse_status (rval : Value) (ovf : Bool) (so : Stream) :
    (okResponse rval ovf so).status = if ovf then 0x4000#15 else 0x0000#15 := by
  cases ovf <;> simp [okResponse, Response.status]

/-! ### The configuration test and table reads -/

/-- All that a command guarded by `CFGV` can do (R198). -/
theorem whenConfigured_next {s t : State} {body : State → State} (h : whenConfigured s body = .next t) :
    (s.conf.cfgv = true ∧ t = body s) ∨ (s.conf.cfgv = false ∧ t = raise .notConfigured s) := by
  unfold whenConfigured at h
  cases hc : s.conf.cfgv <;> simp_all

theorem whenConfigured_true {s : State} {body : State → State} (h : s.conf.cfgv = true) :
    whenConfigured s body = .next (body s) := by simp [whenConfigured, h]

theorem whenConfigured_false {s : State} {body : State → State} (h : s.conf.cfgv = false) :
    whenConfigured s body = .next (raise .notConfigured s) := by simp [whenConfigured, h]

/-- A read of an architectural entry gives the entry (R38, R58). -/
theorem readTable_eq {name : TableName} {entries : List Byte} {d x : Byte} (h : entries[d.toNat]? = some x) :
    readTable name entries d = x := by simp [readTable, h]

theorem readTable_mem {name : TableName} {entries : List Byte} {d : Byte} (h : d.toNat < entries.length) :
    readTable name entries d ∈ entries := by
  rw [readTable_eq (List.getElem?_eq_getElem h)]
  exact List.getElem_mem h

/-! ### Building a table -/

/-- The loop of `scatter` from index `n` on. -/
theorem scatter_loop_length {α : Type} (f : Nat → α) (keys : List Byte) (n : Nat) (table : List α) :
    ((keys.zipIdx n).foldl (fun t p => t.set p.1.toNat (f p.2)) table).length = table.length := by
  induction keys generalizing n table with
  | nil => rfl
  | cons k ks ih => simp [List.zipIdx_cons, ih]

/-- The table keeps its length. -/
theorem scatter_length {α : Type} (f : Nat → α) (init : List α) (keys : List Byte) :
    (scatter f init keys).length = init.length := scatter_loop_length f keys 0 init

theorem scatter_loop_other {α : Type} (f : Nat → α) (keys : List Byte) (n : Nat) (table : List α) (d : Byte)
    (h : d ∉ keys) :
    ((keys.zipIdx n).foldl (fun t p => t.set p.1.toNat (f p.2)) table)[d.toNat]? = table[d.toNat]? := by
  induction keys generalizing n table with
  | nil => rfl
  | cons k ks ih =>
    simp only [List.mem_cons, not_or] at h
    have hne : k.toNat ≠ d.toNat := fun e => h.1 (BitVec.eq_of_toNat_eq e.symm)
    simp [List.zipIdx_cons, ih _ _ h.2, List.getElem?_set_ne hne]

/-- An entry that no key names keeps what it held (R115: it stays absent). -/
theorem scatter_other {α : Type} (f : Nat → α) (init : List α) (keys : List Byte) (d : Byte) (h : d ∉ keys) :
    (scatter f init keys)[d.toNat]? = init[d.toNat]? := scatter_loop_other f keys 0 init d h

theorem scatter_loop_key {α : Type} (f : Nat → α) (keys : List Byte) (n : Nat) (table : List α) (i : Nat) (d : Byte)
    (distinct : keys.Nodup) (h : keys[i]? = some d) (fits : d.toNat < table.length) :
    ((keys.zipIdx n).foldl (fun t p => t.set p.1.toNat (f p.2)) table)[d.toNat]? = some (f (n + i)) := by
  induction keys generalizing n table i with
  | nil => simp at h
  | cons k ks ih =>
    rw [List.nodup_cons] at distinct
    cases i with
    | zero =>
      obtain rfl : k = d := by simpa using h
      simp [List.zipIdx_cons, scatter_loop_other f ks _ _ k distinct.1, fits]
    | succ j =>
      have := ih (n + 1) (table.set k.toNat (f n)) j distinct.2 (by simpa using h) (by simpa using fits)
      simpa [List.zipIdx_cons, Nat.add_assoc, Nat.add_comm 1 j] using this

/-- With distinct keys the entry a key names holds what its index writes (R115, R120). -/
theorem scatter_key {α : Type} (f : Nat → α) (init : List α) (keys : List Byte) (i : Nat) (d : Byte)
    (distinct : keys.Nodup) (h : keys[i]? = some d) (fits : d.toNat < init.length) :
    (scatter f init keys)[d.toNat]? = some (f i) := by
  simpa [scatter] using scatter_loop_key f keys 0 init i d distinct h fits

/-! ### The ports -/

/-- All that the block can find on its ports (R71, R77, R221, R228). -/
theorem fetch_cases (s : State) :
    (s.port.rst = true ∧ fetch s = .reset) ∨
    (s.port.rst = false ∧ ∃ r, s.rsp = some r ∧ s.port.rspReady = true ∧ fetch s = .answered r) ∨
    (s.port.rst = false ∧ ∃ r, s.rsp = some r ∧ s.port.rspReady = false ∧ fetch s = .idle) ∨
    (s.port.rst = false ∧ s.rsp = none ∧ s.port.cmds = [] ∧ fetch s = .idle) ∨
    (s.port.rst = false ∧ s.rsp = none ∧ ∃ c rest, s.port.cmds = c :: rest ∧
      ((∃ i, decode c = .ok i ∧ fetch s = .run i) ∨
       (∃ op, decode c = .error (.illegalCommand op) ∧ fetch s = .illegal op) ∨
       (decode c = .error .awaitingBytes ∧ fetch s = .waiting))) := by
  unfold fetch
  cases hr : s.port.rst with
  | true => simp
  | false =>
    cases hp : s.rsp with
    | some r => cases hd : s.port.rspReady <;> simp
    | none =>
      cases hc : s.port.cmds with
      | nil => simp [fetchCommand]
      | cons c rest =>
        cases hdec : decode c with
        | ok i => simp [fetchCommand, hdec]
        | error e => cases e <;> simp [fetchCommand, hdec]

/-- All that a step can do: it resets, delivers a response, stands still, waits, answers an illegal opcode, or runs a
command. -/
theorem step_cases {s t : State} (h : step s = .next t) :
    (s.port.rst = true ∧ t = resetBlock s) ∨
    (∃ r, s.rsp = some r ∧ t = deliver r s) ∨
    t = s ∨ t = await s ∨
    (∃ op, t = raise (.illegalCommand op) (accept s)) ∨
    (∃ i, exec i (accept s) = .next t) := by
  unfold step at h
  rcases fetch_cases s with ⟨hr, hf⟩ | ⟨-, r, hp, -, hf⟩ | ⟨-, r, -, -, hf⟩ | ⟨-, -, -, hf⟩ |
    ⟨-, -, c, rest, -, ⟨i, -, hf⟩ | ⟨op, -, hf⟩ | ⟨-, hf⟩⟩ <;> rw [hf] at h
  · exact .inl ⟨hr, by simpa using h.symm⟩
  · exact .inr (.inl ⟨r, hp, by simpa using h.symm⟩)
  · exact .inr (.inr (.inl (by simpa using h.symm)))
  · exact .inr (.inr (.inl (by simpa using h.symm)))
  · exact .inr (.inr (.inr (.inr (.inr ⟨i, h⟩))))
  · exact .inr (.inr (.inr (.inr (.inl ⟨op, by simpa using h.symm⟩))))
  · exact .inr (.inr (.inr (.inl (by simpa using h.symm))))

end Sys2Proof.Machine
end

