-- ==== Sys2Proof/Laws/Digits.lean ====
section
/-! SUPPORT. What the functions on digit arrays and the round sequencer keep. -/

namespace Sys2Proof.Machine

@[simp] theorem rotateLeft_length (ds : List Byte) : (rotateLeft ds).length = ds.length := by
  cases ds <;> simp [rotateLeft]

theorem rotateRight_append (ds : List Byte) (d : Byte) : rotateRight (ds ++ [d]) = d :: ds := by
  simp [rotateRight]

@[simp] theorem rotateRight_nil : rotateRight [] = [] := rfl

@[simp] theorem rotateRight_length (ds : List Byte) : (rotateRight ds).length = ds.length := by
  rcases List.eq_nil_or_concat ds with rfl | ⟨init, last, rfl⟩
  · rfl
  · simp [rotateRight_append]

@[simp] theorem mem_rotateLeft {ds : List Byte} {d : Byte} : d ∈ rotateLeft ds ↔ d ∈ ds := by
  cases ds <;> simp [rotateLeft, or_comm]

@[simp] theorem mem_rotateRight {ds : List Byte} {d : Byte} : d ∈ rotateRight ds ↔ d ∈ ds := by
  rcases List.eq_nil_or_concat ds with rfl | ⟨init, last, rfl⟩
  · simp
  · simp [rotateRight_append, or_comm]

@[simp] theorem substitute_length (f : Byte → Byte) (ds : List Byte) : (substitute f ds).length = ds.length := by
  simp [substitute]

@[simp] theorem cascadeForward_length (base : Nat) (last : Byte) (ds : List Byte) :
    (cascadeForward base last ds).length = ds.length := by
  induction ds generalizing last with
  | nil => rfl
  | cons d rest ih => simp [cascadeForward, ih]

@[simp] theorem cascadeBackward_length (base : Nat) (last : Byte) (ds : List Byte) :
    (cascadeBackward base last ds).length = ds.length := by
  induction ds generalizing last with
  | nil => rfl
  | cons d rest ih => simp [cascadeBackward, ih]

@[simp] theorem digitsOf_length (base v n : Nat) : (digitsOf base v n).length = n := by simp [digitsOf]

/-- Digits of a legal base are below it (R132). -/
theorem digitsOf_lt {base v n : Nat} (low : 0 < base) :
    ∀ d ∈ digitsOf base v n, d.toNat < base := by
  intro d hd
  simp only [digitsOf, List.mem_map] at hd
  obtain ⟨i, -, rfl⟩ := hd
  have := Nat.mod_lt (v / base ^ (n - 1 - i)) low
  rw [BitVec.toNat_ofNat]
  exact lt_of_le_of_lt (Nat.mod_le _ _) this

/-- What every micro-operation keeps, all but the digits: the frame of R140. -/
structure OnlyDigitsChange (s t : State) : Prop where
  conf : t.conf = s.conf
  dlen : t.dlen = s.dlen
  st : t.st = s.st
  busy : t.busy = s.busy
  rsp : t.rsp = s.rsp
  port : t.port = s.port

theorem OnlyDigitsChange.refl (s : State) : OnlyDigitsChange s s := ⟨rfl, rfl, rfl, rfl, rfl, rfl⟩

theorem OnlyDigitsChange.trans {s t u : State} (h : OnlyDigitsChange s t) (k : OnlyDigitsChange t u) :
    OnlyDigitsChange s u :=
  ⟨k.conf.trans h.conf, k.dlen.trans h.dlen, k.st.trans h.st, k.busy.trans h.busy, k.rsp.trans h.rsp,
    k.port.trans h.port⟩

theorem forwardStep_frame (place : Fin 5) (s : State) : OnlyDigitsChange s (forwardStep place s) := by
  fin_cases place <;> constructor <;> simp [forwardStep, State.dlen]

theorem backwardStep_frame (place : Fin 5) (s : State) : OnlyDigitsChange s (backwardStep place s) := by
  fin_cases place <;> constructor <;> simp [backwardStep, State.dlen]

/-- The sequencer keeps what each of its steps keeps. -/
theorem runSequencer_frame {micro : Fin 5 → State → State} (each : ∀ p s, OnlyDigitsChange s (micro p s)) (count : Nat)
    (q : Sequencer) (s : State) : OnlyDigitsChange s (runSequencer micro count q s) := by
  induction count generalizing q s with
  | zero => exact .refl s
  | succ n ih => exact (each q.step s).trans (ih q.advance (micro q.step s))

theorem pipfBody_frame (s : State) : OnlyDigitsChange s (pipfBody s) := runSequencer_frame forwardStep_frame _ _ s

theorem pipbBody_frame (s : State) : OnlyDigitsChange s (pipbBody s) := runSequencer_frame backwardStep_frame _ _ s

/-- Five steps from place 0 are one forward round (R170). -/
theorem runSequencer_forward_round (count rnd : Nat) (s : State) :
    runSequencer forwardStep (count + 5) { rnd := rnd, step := 0 } s =
      runSequencer forwardStep count { rnd := rnd + 1, step := 0 }
        (rotlBody (casfBody (rotlBody (permfBody (rotlBody s))))) := by
  simp [runSequencer, Sequencer.advance, forwardStep]

/-- Five steps from place 0 are one backward round (R170). -/
theorem runSequencer_backward_round (count rnd : Nat) (s : State) :
    runSequencer backwardStep (count + 5) { rnd := rnd, step := 0 } s =
      runSequencer backwardStep count { rnd := rnd + 1, step := 0 }
        (rotrBody (permbBody (rotrBody (casbBody (rotrBody s))))) := by
  simp [runSequencer, Sequencer.advance, backwardStep]

end Sys2Proof.Machine
end

