-- ==== Sys2Proof/Laws/Commands.lean ====
section
/-! SUPPORT. What the functions that several commands share can answer: the Base64 reader, the text loader, and the
construction of a configuration. -/

namespace Sys2Proof.Machine

/-- The errors of the Base64 reader are those of `InvalidFormat` (R194). -/
def Cause.isFormat : Cause → Bool
  | .formatLength => true
  | .formatCharacter _ => true
  | .formatPadding => true
  | .alphabetSize => false
  | .alphabetDuplicate => false
  | .configMinLength => false
  | .permutationLength => false
  | .permutationNotUnique => false
  | .permutationOutOfRange => false
  | .characterNotInAlphabet _ => false
  | .notConfigured => false
  | .capacityMinLength => false
  | .capacityText => false
  | .illegalCommand _ => false

/-- An error of the scan is a misplaced `'='` or a character of the text outside the alphabet (R96, R97). -/
theorem scanText_error {text : Stream} {e : Cause} (h : scanText text = .error e) :
    e = .formatPadding ∨ ∃ c ∈ text, b64Inv c = none ∧ e = .formatCharacter c := by
  induction text with
  | nil => simp [scanText] at h
  | cons c rest ih =>
    have later (hr : scanText rest = .error e) :
        e = .formatPadding ∨ ∃ x ∈ c :: rest, b64Inv x = none ∧ e = .formatCharacter x := by
      rcases ih hr with he | ⟨x, hx, hn, he⟩
      · exact .inl he
      · exact .inr ⟨x, List.mem_cons_of_mem _ hx, hn, he⟩
    rw [scanText] at h
    split at h
    · split at h
      · exact .inl (by simpa using h.symm)
      · split at h
        · cases h
        · next e' hr => exact later (by simpa [hr] using h)
    · split at h
      · exact later h
      · next hn => exact .inr ⟨c, List.mem_cons_self, hn, by simpa using h.symm⟩

/-- All that the function of `B64D` can answer: bytes, or an error of `InvalidFormat` (R94, R194). -/
theorem decodeText_error {text : Stream} {e : Cause} (h : decodeText text = .error e) : e.isFormat = true := by
  unfold decodeText at h
  split at h
  · obtain rfl : Cause.formatLength = e := by simpa using h
    rfl
  · split at h
    · next e' hs =>
      obtain rfl : e' = e := by simpa using h
      rcases scanText_error hs with rfl | ⟨c, -, -, rfl⟩ <;> rfl
    · cases h

/-- A text that loads has a digit for each character, and fits the buffer (R163). -/
theorem digitsOfText_ok {k : Configuration} {text : Stream} {ds : List Byte} {i : Nat}
    (h : digitsOfText k i text = .ok ds) :
    ds.map some = text.map (readRev k) ∧ (text ≠ [] → i + text.length ≤ Config.nmax) := by
  induction text generalizing i ds with
  | nil =>
    obtain rfl : [] = ds := by simpa [digitsOfText] using h
    simp
  | cons c rest ih =>
    rw [digitsOfText] at h
    split at h
    · cases h
    · next below =>
      split at h
      · cases h
      · next d hd =>
        split at h
        · next ds' hr =>
          obtain rfl : d :: ds' = ds := by simpa using h
          obtain ⟨digits, fits⟩ := ih hr
          refine ⟨by simp [hd, digits], fun _ => ?_⟩
          by_cases empty : rest = []
          · subst empty
            simp only [List.length_cons, List.length_nil]
            omega
          · have := fits empty
            simp only [List.length_cons]
            omega
        · cases h

/-- A text that does not load is too long or holds a character outside the alphabet (R163). -/
theorem digitsOfText_error {k : Configuration} {text : Stream} {e : Cause} {i : Nat}
    (h : digitsOfText k i text = .error e) :
    (e = .capacityText ∧ Config.nmax < i + text.length) ∨
    ∃ c ∈ text, readRev k c = none ∧ e = .characterNotInAlphabet c := by
  induction text generalizing i with
  | nil => simp [digitsOfText] at h
  | cons c rest ih =>
    rw [digitsOfText] at h
    split at h
    · next full =>
      refine .inl ⟨by simpa using h.symm, ?_⟩
      simp only [List.length_cons]
      omega
    · split at h
      · next hn => exact .inr ⟨c, List.mem_cons_self, hn, by simpa using h.symm⟩
      · split at h
        · cases h
        · next e' hr =>
          obtain rfl : e' = e := by simpa using h
          rcases ih hr with ⟨he, long⟩ | ⟨x, hx, hn, he⟩
          · refine .inl ⟨he, ?_⟩
            simp only [List.length_cons]
            omega
          · exact .inr ⟨x, List.mem_cons_of_mem _ hx, hn, he⟩

/-- All that the tests of `CFG` can answer when they pass (R110): every test passed, and the configuration is the shadow
one. -/
theorem construct_ok {sa sb : Stream} {len : Length} {k : Configuration} (h : construct sa sb len = .ok k) :
    ∃ p, checkAlphabet sa = none ∧ checkMinLength (readLen len) = none ∧ decodeText sb = .ok p ∧
      checkPermutation sa.length p = none ∧ k = shadowConfiguration sa (readLen len) p := by
  unfold construct at h
  split at h
  · cases h
  · next ha =>
    split at h
    · cases h
    · next hm =>
      split at h
      · cases h
      · next p hd =>
        split at h
        · cases h
        · next hp => exact ⟨p, ha, hm, hd, hp, by simpa using h.symm⟩

/-- The alphabet passes steps 1 and 2 exactly when R111 and R112 hold. -/
theorem checkAlphabet_none {sa : Stream} :
    checkAlphabet sa = none ↔ 2 ≤ sa.length ∧ sa.length ≤ 256 ∧ sa.Nodup := by
  unfold checkAlphabet
  split
  · simp only [reduceCtorEq, false_iff]
    omega
  · split <;> simp_all
    omega

/-- The minimum length passes exactly when R113 and R114 hold. -/
theorem checkMinLength_none {m : Int} : checkMinLength m = none ↔ 1 ≤ m ∧ m ≤ (Config.nmax : Int) := by
  unfold checkMinLength
  split
  · simp only [reduceCtorEq, false_iff]
    omega
  · split
    · simp only [reduceCtorEq, false_iff]
      omega
    · simp only [true_iff]
      omega

end Sys2Proof.Machine
end

