-- ==== Sys2Proof/Laws/PerInstr.lean ====
section
/-! SUPPORT. The family of statements made of every command as syntax: its encoding stands in the opcode map. -/

namespace Sys2Proof.Laws.EncodedInOpcodeMap

/-- The format of a command by the shape of its operands (R72). -/
def formatOf : Instr → Format
  | .cfg _ _ _ => .C
  | .enc _ => .V
  | .dec _ => .S
  | .b64e _ => .S
  | .b64d _ => .S
  | .pipf => .N
  | .pipb => .N
  | .i2d _ => .V
  | .d2i => .N
  | .c2d _ => .S
  | .d2c => .N
  | .rotl => .N
  | .rotr => .N
  | .permf => .N
  | .permb => .N
  | .casf => .N
  | .casb => .N

/-- The word of the command is the opcode of a row of R75, and that row has the command's format. -/
def Statement (i : Instr) : Prop := (findRow (encode i).op).map (fun r => r.format) = some (formatOf i)

theorem cfg (sa sb : Stream) (len : Length) : Statement (.cfg sa sb len) := rfl
theorem enc (val : Value) : Statement (.enc val) := rfl
theorem dec (sa : Stream) : Statement (.dec sa) := rfl
theorem b64e (sa : Stream) : Statement (.b64e sa) := rfl
theorem b64d (sa : Stream) : Statement (.b64d sa) := rfl
theorem pipf : Statement .pipf := rfl
theorem pipb : Statement .pipb := rfl
theorem i2d (val : Value) : Statement (.i2d val) := rfl
theorem d2i : Statement .d2i := rfl
theorem c2d (sa : Stream) : Statement (.c2d sa) := rfl
theorem d2c : Statement .d2c := rfl
theorem rotl : Statement .rotl := rfl
theorem rotr : Statement .rotr := rfl
theorem permf : Statement .permf := rfl
theorem permb : Statement .permb := rfl
theorem casf : Statement .casf := rfl
theorem casb : Statement .casb := rfl

end Sys2Proof.Laws.EncodedInOpcodeMap
end

