-- ==== Sys2Proof/Tests/Slice0.lean ====
section
/-! SUPPORT. Tests of single steps against the vectors of spec/95_test_vectors.md and the encodings of
spec/30_encoding.md, the smoke test of the well-formedness checks, and a witness for the hypotheses of every statement
that has any. -/

namespace Sys2Proof.Tests

open Sys2Proof Sys2Proof.Machine

/-! ### Helpers: the configurations K2, K3 and K10 of 95_test_vectors.md, and what an outcome holds -/

/-- `REV` of an alphabet given as pairs of character and index. -/
def revOf (pairs : List (Nat × Byte)) : List (Option Byte) :=
  pairs.foldl (fun rev p => rev.set p.1 (some p.2)) (List.replicate 256 none)

/-- K2: alphabet "ab", permutation [1, 0], minimum length 1. -/
def k2 : Configuration :=
  { cfgv := true, asize := 2, minlen := 1, alpha := [0x61, 0x62], rev := revOf [(0x61, 0), (0x62, 1)],
    perm := [1, 0], inv := [1, 0] }

/-- K3: alphabet "xyz", permutation [2, 0, 1], minimum length 2. -/
def k3 : Configuration :=
  { cfgv := true, asize := 3, minlen := 2, alpha := [0x78, 0x79, 0x7A], rev := revOf [(0x78, 0), (0x79, 1), (0x7A, 2)],
    perm := [2, 0, 1], inv := [1, 2, 0] }

/-- K10: alphabet "0123456789", permutation [3, 1, 4, 0, 9, 2, 6, 8, 7, 5], minimum length 4. -/
def k10 : Configuration :=
  { cfgv := true, asize := 10, minlen := 4,
    alpha := [0x30, 0x31, 0x32, 0x33, 0x34, 0x35, 0x36, 0x37, 0x38, 0x39],
    rev := revOf [(0x30, 0), (0x31, 1), (0x32, 2), (0x33, 3), (0x34, 4), (0x35, 5), (0x36, 6), (0x37, 7), (0x38, 8), (0x39, 9)],
    perm := [3, 1, 4, 0, 9, 2, 6, 8, 7, 5], inv := [3, 1, 5, 0, 2, 9, 6, 8, 7, 4] }

/-- A base of 256 for the units that read nothing else of the configuration. -/
def base256 : Configuration := { k2 with asize := 256 }

/-- A block with a configuration and digits, nothing offered and nothing to take. -/
def loaded (k : Configuration) (digits : List Byte) : State := { State.reset with conf := k, buf := digits }

/-- The state in which a command ended. -/
def after (o : Host.Outcome State Fault Refusal) : Option State :=
  match o with
  | .next t => some t
  | .fault _ => none
  | .refused _ => none

/-- The digits a command leaves. -/
def digitsAfter (i : Instr) (s : State) : Option (List Byte) := (after (exec i s)).map (fun t => t.buf)

/-- The response a command gives. -/
def answer (i : Instr) (s : State) : Option Response := (after (exec i s)).bind (fun t => t.rsp)

/-- The output stream a command gives. -/
def outputOf (i : Instr) (s : State) : Option Stream := (answer i s).map (fun r => r.so)

/-- Code, sub-code and information byte a command leaves in `ST`. -/
def statusAfter (i : Instr) (s : State) : Option (BitVec 4 × BitVec 2 × Byte) :=
  (after (exec i s)).map (fun t => (stCode t.st, stSub t.st, stInfo t.st))

/-! ### Decoding: every opcode, its bits written out from R75 and opcode_table.json, operands of R82 on their ports -/

theorem test_decode_cfg :
    decode { op := 0b00000001, val := 7, len := 4, saLen := 2, sbLen := 4, sa := [0x61, 0x62], sb := [0x41, 0x51, 0x41, 0x3D] } = .ok (.cfg [0x61, 0x62] [0x41, 0x51, 0x41, 0x3D] 4) := by decide

theorem test_decode_enc :
    decode { op := 0b00000010, val := 0x2A, len := 9, saLen := 1, sbLen := 0, sa := [0x61], sb := [] } = .ok (.enc 0x2A) := by decide

theorem test_decode_dec :
    decode { op := 0b00000011, val := 1, len := 9, saLen := 2, sbLen := 5, sa := [0x35, 0x30], sb := [] } = .ok (.dec [0x35, 0x30]) := by decide

theorem test_decode_b64e :
    decode { op := 0b00000100, val := 0, len := 0, saLen := 2, sbLen := 0, sa := [0x01, 0x00], sb := [] } = .ok (.b64e [0x01, 0x00]) := by decide

theorem test_decode_b64d :
    decode { op := 0b00000101, val := 0, len := 0, saLen := 4, sbLen := 0, sa := [0x41, 0x51, 0x41, 0x3D], sb := [] } = .ok (.b64d [0x41, 0x51, 0x41, 0x3D]) := by decide

theorem test_decode_i2d :
    decode { op := 0b00010000, val := 0x8000000000000001, len := 0, saLen := 0, sbLen := 0, sa := [], sb := [] } = .ok (.i2d 0x8000000000000001) := by decide

theorem test_decode_c2d :
    decode { op := 0b00010010, val := 0, len := 0, saLen := 0, sbLen := 0, sa := [], sb := [] } = .ok (.c2d []) := by decide

theorem test_decode_pipf :
    decode { op := 0b00001000, val := 3, len := 3, saLen := 3, sbLen := 3, sa := [], sb := [] } = .ok .pipf := by decide

theorem test_decode_pipb :
    decode { op := 0b00001001, val := 3, len := 3, saLen := 3, sbLen := 3, sa := [], sb := [] } = .ok .pipb := by decide

theorem test_decode_d2i :
    decode { op := 0b00010001, val := 3, len := 3, saLen := 3, sbLen := 3, sa := [], sb := [] } = .ok .d2i := by decide

theorem test_decode_d2c :
    decode { op := 0b00010011, val := 3, len := 3, saLen := 3, sbLen := 3, sa := [], sb := [] } = .ok .d2c := by decide

theorem test_decode_rotl :
    decode { op := 0b00010100, val := 3, len := 3, saLen := 3, sbLen := 3, sa := [], sb := [] } = .ok .rotl := by decide

theorem test_decode_rotr :
    decode { op := 0b00010101, val := 3, len := 3, saLen := 3, sbLen := 3, sa := [], sb := [] } = .ok .rotr := by decide

theorem test_decode_permf :
    decode { op := 0b00010110, val := 3, len := 3, saLen := 3, sbLen := 3, sa := [], sb := [] } = .ok .permf := by decide

theorem test_decode_permb :
    decode { op := 0b00010111, val := 3, len := 3, saLen := 3, sbLen := 3, sa := [], sb := [] } = .ok .permb := by decide

theorem test_decode_casf :
    decode { op := 0b00011000, val := 3, len := 3, saLen := 3, sbLen := 3, sa := [], sb := [] } = .ok .casf := by decide

theorem test_decode_casb :
    decode { op := 0b00011001, val := 3, len := 3, saLen := 3, sbLen := 3, sa := [], sb := [] } = .ok .casb := by decide

/-- R75: no two rows of the opcode map share a word. -/
theorem test_opcodes_distinct : opcodeTable.Pairwise (fun r r' => r.op ≠ r'.op) := by decide

/-- R77: the words next to the seventeen are refused by name. -/
theorem test_decode_illegal :
    decode (bareCommand 0b00000000) = .error (.illegalCommand 0x00) ∧
    decode (bareCommand 0b00000110) = .error (.illegalCommand 0x06) ∧
    decode (bareCommand 0b00001010) = .error (.illegalCommand 0x0A) ∧
    decode (bareCommand 0b00011010) = .error (.illegalCommand 0x1A) := by decide

/-- R228: a stream with fewer bytes than declared is not a command yet. -/
theorem test_decode_short :
    decode { bareCommand 0x05 with saLen := 4, sa := [0x41, 0x51, 0x41] } = .error .awaitingBytes ∧
    decode { bareCommand 0x01 with sbLen := 1 } = .error .awaitingBytes := by decide

/-! ### Well-formedness: one ill-formed term for each check -/

theorem test_illformed_cfg_sa : (Instr.cfg (List.replicate (2 ^ 32) 0) [] 1).wf = false := by
  simp only [Instr.wf, streamFits, List.length_replicate, List.length_nil]
  decide

theorem test_illformed_cfg_sb : (Instr.cfg [] (List.replicate (2 ^ 32) 0) 1).wf = false := by
  simp only [Instr.wf, streamFits, List.length_replicate, List.length_nil]
  decide

theorem test_illformed_dec : (Instr.dec (List.replicate (2 ^ 32) 0)).wf = false := by
  simp only [Instr.wf, streamFits, List.length_replicate]
  decide

theorem test_illformed_b64d : (Instr.b64d (List.replicate (2 ^ 32) 0)).wf = false := by
  simp only [Instr.wf, streamFits, List.length_replicate]
  decide

theorem test_illformed_c2d : (Instr.c2d (List.replicate (2 ^ 32) 0)).wf = false := by
  simp only [Instr.wf, streamFits, List.length_replicate]
  decide

/-- R66: one byte above the domain of `B64E`. -/
theorem test_illformed_b64e : (Instr.b64e (List.replicate 3221225470 0)).wf = false := by
  simp only [Instr.wf, Config.b64eDomain, List.length_replicate]
  decide

theorem test_wellformed_b64e_at_the_bound : (Instr.b64e (List.replicate 3221225469 0)).wf = true := by
  simp only [Instr.wf, Config.b64eDomain, List.length_replicate]
  decide

theorem test_illformed_command_sa : ({ bareCommand 0x05 with saLen := 2, sa := [0x41] } : Command).wf = false := by decide

theorem test_illformed_command_sb : ({ bareCommand 0x01 with sbLen := 0, sb := [0x41] } : Command).wf = false := by decide

/-! ### One step of each command, against 95_test_vectors.md -/

set_option maxRecDepth 2000 in
/-- section 2.2 -/
theorem test_cfg_commits_k2 :
    (after (exec (.cfg [0x61, 0x62] [0x41, 0x51, 0x41, 0x3D] 1) (loaded k3 [1]))).map (fun t => (t.conf, t.buf)) = some (k2, []) := by decide

/-- section 2.2: `CFG "AAA", "@@@", -1` is `InvalidAlphabet.duplicate` -/
theorem test_cfg_first_failure_wins :
    statusAfter (.cfg [0x41, 0x41, 0x41] [0x40, 0x40, 0x40] 0xFFFFFFFF) (loaded k2 [1]) = some (1, 2, 0) := by decide

/-- section 2.6: `ENC 5` under K2 is "baa" -/
theorem test_enc_k2_5 :
    outputOf (.enc 5) (loaded k2 []) = some [0x62, 0x61, 0x61] := by decide

/-- section 2.6: `ENC 0` under K3 is "yx" -/
theorem test_enc_k3_zero :
    outputOf (.enc 0) (loaded k3 []) = some [0x79, 0x78] := by decide

/-- section 2.6: `DEC "50"` under K10 gives 42 -/
theorem test_dec_k10_50 :
    (answer (.dec [0x35, 0x30]) (loaded k10 [])).map (fun r => (r.rval, r.ovf)) = some (42, false) := by decide

set_option maxRecDepth 2000 in
/-- section 2.6: `DEC "ba$"` under K2, P3 command 6 -/
theorem test_dec_bad_character :
    (after (exec (.dec [0x62, 0x61, 0x24]) (loaded k2 [1, 0, 0]))).map (fun t => (stCode t.st, stInfo t.st, t.buf)) = some (5, 0x24, []) := by decide

/-- section 2.1: FB FF is "+/8=" -/
theorem test_b64e_two_bytes :
    outputOf (.b64e [0xFB, 0xFF]) State.reset = some [0x2B, 0x2F, 0x38, 0x3D] := by decide

/-- section 2.1: 66 is "Zg==" -/
theorem test_b64e_one_byte :
    outputOf (.b64e [0x66]) State.reset = some [0x5A, 0x67, 0x3D, 0x3D] := by decide

/-- section 2.1: "QR==" is 41 -/
theorem test_b64d_discarded_bits :
    outputOf (.b64d [0x51, 0x52, 0x3D, 0x3D]) State.reset = some [0x41] := by decide

/-- section 2.1: "AB=C" is `InvalidFormat.padding` -/
theorem test_b64d_padding :
    statusAfter (.b64d [0x41, 0x42, 0x3D, 0x43]) State.reset = some (3, 3, 0x3D) := by decide

/-- rule R171: [4, 2] becomes [5, 0] -/
theorem test_pipf_k10 :
    digitsAfter .pipf (loaded k10 [4, 2]) = some [5, 0] := by decide

/-- rule R174: [5, 0] becomes [4, 2] -/
theorem test_pipb_k10 :
    digitsAfter .pipb (loaded k10 [5, 0]) = some [4, 2] := by decide

/-- section 2.3: `I2D 10000` under K10 -/
theorem test_i2d_k10_10000 :
    digitsAfter (.i2d 10000) (loaded k10 []) = some [1, 0, 0, 0, 0] := by decide

/-- section 2.3: `I2D 8` under K3, 3^2 - 1 -/
theorem test_i2d_k3_8 :
    digitsAfter (.i2d 8) (loaded k3 []) = some [2, 2] := by decide

/-- section 2.3: 256^8 gives 0 and OVF -/
theorem test_d2i_wraps :
    (answer .d2i (loaded base256 [1, 0, 0, 0, 0, 0, 0, 0, 0])).map (fun r => (r.rval, r.ovf)) = some (0, true) := by decide

/-- section 2.3: [0, 0, 4, 2] is 42 -/
theorem test_d2i_k10_42 :
    (answer .d2i (loaded k10 [0, 0, 4, 2])).map (fun r => (r.rval, r.ovf)) = some (42, false) := by decide

/-- section 2.5: `C2D "5239"` under K10 -/
theorem test_c2d_k10 :
    digitsAfter (.c2d [0x35, 0x32, 0x33, 0x39]) (loaded k10 [7]) = some [5, 2, 3, 9] := by decide

set_option maxRecDepth 2000 in
/-- section 2.5: `C2D "abA"` under K2 -/
theorem test_c2d_bad_character :
    statusAfter (.c2d [0x61, 0x62, 0x41]) (loaded k2 [1]) = some (5, 0, 0x41) := by decide

/-- section 2.5: [2, 0] under K3 is "zx" -/
theorem test_d2c_k3 :
    outputOf .d2c (loaded k3 [2, 0]) = some [0x7A, 0x78] := by decide

/-- section 2.4 -/
theorem test_rotl :
    digitsAfter .rotl (loaded k10 [1, 2, 3, 4]) = some [2, 3, 4, 1] := by decide

/-- section 2.4 -/
theorem test_rotr :
    digitsAfter .rotr (loaded k10 [1, 2, 3, 4]) = some [4, 1, 2, 3] := by decide

/-- section 2.4 -/
theorem test_permf :
    digitsAfter .permf (loaded k10 [0, 1, 2, 9]) = some [3, 1, 4, 5] := by decide

/-- section 2.4 -/
theorem test_permb :
    digitsAfter .permb (loaded k10 [3, 1, 4, 5]) = some [0, 1, 2, 9] := by decide

/-- section 2.4 -/
theorem test_casf_k10 :
    digitsAfter .casf (loaded k10 [7, 8, 9, 0]) = some [7, 5, 4, 4] := by decide

/-- section 2.4, K256: sums of nine bits -/
theorem test_casf_nine_bits :
    digitsAfter .casf (loaded base256 [200, 100, 255]) = some [200, 44, 43] := by decide

/-- section 2.4: the value before the update is the next LAST -/
theorem test_casb_k10 :
    digitsAfter .casb (loaded k10 [7, 8, 9, 0]) = some [7, 1, 1, 1] := by decide

/-- section 2.4, K256 -/
theorem test_casb_k256 :
    digitsAfter .casb (loaded base256 [200, 100, 255]) = some [200, 156, 155] := by decide

/-- Section 2.7: an illegal opcode after reset answers `IllegalCommand`, not `NotConfigured`. -/
theorem test_step_illegal :
    (after (step (State.reset.withFetchWord 8 0x1A))).map (fun t => (stCode t.st, stInfo t.st)) = some (10, 0x1A) := by
  decide

/-- Section 2.7: `ENC` after reset answers `NotConfigured`; the command has left the port. -/
theorem test_step_enc_after_reset :
    (after (step (State.reset.withFetchWord 8 0x02))).map (fun t => (stCode t.st, t.port.cmds)) = some (8, []) := by
  decide

/-- R31: the layout of `ST`, `CODE` 10, `INFO` 0x1A, is bits 3:0 and 13:6. -/
theorem test_status_layout : (errorResponse (.illegalCommand 0x1A)).status = 0b000011010001010 := by decide

/-! ### Witnesses: for every statement with hypotheses, a state and operands that meet them -/

set_option maxRecDepth 8000 in
/-- K2 meets the invariants of R32. -/
theorem witness_k2_legal : k2.Legal := by
  refine ⟨by decide, by decide, by decide, ?_, by decide, by decide, by decide, ?_, by decide, by decide, by decide,
    by decide, by decide, by decide⟩
  · show 1 ≤ Config.spareDigits + 64
    omega
  · intro i c h
    match i with
    | 0 => obtain rfl : 0x61#8 = c := by simpa [k2] using h
           decide
    | 1 => obtain rfl : 0x62#8 = c := by simpa [k2] using h
           decide
    | n + 2 => simp [k2] at h

/-- K2 with the digits 1, 0, 1 loaded. -/
def ready2 : State := loaded k2 [1, 0, 1]

/-- The premise `Ready` of I2dIsRepeatedDivision, I2dFitsTheBuffer, ConversionsUndoEachOther, SubstitutionsUndoEachOther,
CascadesUndoEachOther, D2cSpellsTheBuffer, MapperRoundTrips, PipelinesUndoEachOther, EncAlwaysAnswersAString,
DecodeOfEncodedValueIsTheValue. -/
theorem witness_ready : ready2.Ready := by
  refine ⟨by decide, witness_k2_legal, by decide, ?_⟩
  show 3 ≤ Config.spareDigits + 64
  omega

/-- The premise of EveryStepKeepsTheInvariants, with a command that runs. -/
theorem witness_invariants :
    ready2.Inv ∧ ∃ t, step (ready2.withFetchWord 8 0x14) = .next t ∧ (ready2.withFetchWord 8 0x14).Inv := by
  have status : LegalStatus (0 : BitVec 15) := by unfold LegalStatus; decide
  refine ⟨⟨by decide, fun _ => witness_ready, status, by decide, by decide⟩, _, rfl,
    ⟨by decide, fun _ => ⟨by decide, witness_k2_legal, by decide, ?_⟩, status, by simp [State.withFetchWord],
      by simp [State.withFetchWord]⟩⟩
  show 3 ≤ Config.spareDigits + 64
  omega

/-- The premises of DecodeOfEncodeIsTheCommand, one command of each format with operands. -/
theorem witness_wellformed :
    (Instr.cfg [0x61, 0x62] [0x41] 1).wf = true ∧ (Instr.enc 1).wf = true ∧ (Instr.dec [0x61]).wf = true ∧
    Instr.rotl.wf = true := by decide

/-- The premises of EncodeOfDecodeIsTheNamedPorts. -/
theorem witness_complete_command :
    ({ bareCommand 0x03 with val := 5, saLen := 1, sa := [0x61] } : Command).wf = true ∧
    decode { bareCommand 0x03 with val := 5, saLen := 1, sa := [0x61] } = .ok (.dec [0x61]) := by decide

/-- The premises of UnnamedPortsAreNotRead: two different commands whose named ports agree. -/
theorem witness_unnamed_ports :
    findRow 0x02 = some ⟨0x02, "ENC", .V⟩ ∧
    namedPorts .V { bareCommand 0x02 with val := 1, len := 7 } = namedPorts .V { bareCommand 0x02 with val := 1, saLen := 9 } ∧
    ({ bareCommand 0x02 with val := 1, len := 7 } : Command) ≠ { bareCommand 0x02 with val := 1, saLen := 9 } ∧
    ({ bareCommand 0x02 with val := 1, len := 7 } : Command).wf = true := by decide

/-- A block with commands offered. -/
def offering (cmds : List Command) : State := { ready2 with port := { Port.reset with cmds := cmds } }

/-- The premises of StepRunsTheDecodedCommand. -/
theorem witness_step_runs :
    (offering [bareCommand 0x14]).port.rst = false ∧ (offering [bareCommand 0x14]).rsp = none ∧
    (offering [bareCommand 0x14]).port.cmds = bareCommand 0x14 :: [] ∧ decode (bareCommand 0x14) = .ok .rotl := by decide

/-- The premises of IllegalOpcodeAnswersIllegalCommand, at both ends of a gap of the opcode map. -/
theorem witness_illegal :
    (offering [bareCommand 0x0A]).port.rst = false ∧ (offering [bareCommand 0x0A]).rsp = none ∧
    (offering [bareCommand 0x0A]).port.cmds = bareCommand 0x0A :: [] ∧ findRow (bareCommand 0x0A).op = none ∧
    findRow (bareCommand 0x0F).op = none ∧ findRow (bareCommand 0x1A).op = none ∧ findRow (bareCommand 0xFF).op = none := by
  decide

/-- The premises of both clauses of BlockWaitsForTheHost: one byte missing on `SA`, on `SB`; a response not taken. -/
theorem witness_block_waits :
    (findRow 0x05 = some ⟨0x05, "B64D", .S⟩ ∧ shortOfBytes .S { bareCommand 0x05 with saLen := 2, sa := [0x41] }) ∧
    (findRow 0x01 = some ⟨0x01, "CFG", .C⟩ ∧ shortOfBytes .C { bareCommand 0x01 with sbLen := 1 }) ∧
    ({ ready2 with rsp := some (okResponse 0 false []), port := { Port.reset with rspReady := false } } : State).rsp =
      some (okResponse 0 false []) := by
  unfold shortOfBytes
  decide

/-- The premises of ResponseIsDelivered. -/
theorem witness_delivery :
    ({ ready2 with rsp := some (okResponse 0 false []) } : State).port.rst = false ∧
    ({ ready2 with rsp := some (okResponse 0 false []) } : State).port.rspReady = true := by decide

/-- The premise of ResetAbandonsTheCommand, with a waiting command. -/
theorem witness_reset :
    ({ ready2 with busy := true, port := { Port.reset with rst := true, cmds := [bareCommand 0x14] } } : State).port.rst = true := by
  decide

/-- The premises of ConfigurationIsImmutable: a command other than `CFG`, and a `CFG` that fails. -/
theorem witness_configuration_kept :
    (∃ t, exec .rotl ready2 = .next t ∧ ∀ sa sb len, Instr.rotl ≠ .cfg sa sb len) ∧
    (∃ t, exec (.cfg [] [] 1) ready2 = .next t ∧ stCode t.st ≠ 0) :=
  ⟨⟨_, rfl, by simp⟩, ⟨_, rfl, by decide⟩⟩

/-- The premises of FailedCommandsLeaveNoResult and CommandsRaiseOnlyTheirErrors, with and without the loss of the
buffer. -/
theorem witness_failed :
    (∃ t, exec (.c2d [0x24]) ready2 = .next t ∧ stCode t.st = 5) ∧
    (∃ t, exec .rotl State.reset = .next t ∧ stCode t.st = 8) :=
  ⟨⟨_, rfl, by decide⟩, ⟨_, rfl, by decide⟩⟩

/-- The premises of OverflowFlagOnlyFromConversions. -/
theorem witness_overflow :
    ∃ t, exec .d2i (loaded base256 [1, 0, 0, 0, 0, 0, 0, 0, 0]) = .next t ∧ stOvf t.st = true := ⟨_, rfl, by decide⟩

/-- The premises of UnconfiguredCommandsAreRefused and of the clause `RefusesUnconfigured` of the command statements. -/
theorem witness_unconfigured : worksUnconfigured .rotl = false ∧ State.reset.conf.cfgv = false := by decide

/-- The premise of B64dReadsTheGroups: "AQA=". -/
theorem witness_accepted : Accepted [0x41, 0x51, 0x41, 0x3D] := by
  refine ⟨by decide, fun i c h => ?_⟩
  match i with
  | 0 => obtain rfl : 0x41#8 = c := by simpa using h
         exact .inl (by decide)
  | 1 => obtain rfl : 0x51#8 = c := by simpa using h
         exact .inl (by decide)
  | 2 => obtain rfl : 0x41#8 = c := by simpa using h
         exact .inl (by decide)
  | 3 => obtain rfl : 0x3D#8 = c := by simpa using h
         exact .inr ⟨rfl, .inl rfl⟩
  | n + 4 => simp at h

/-- The premises of B64dReportsTheFirstOffence: "ABC"; "A=BC" offends first at index 1. -/
theorem witness_offence :
    ([0x41, 0x42, 0x43] : Stream).length % 4 ≠ 0 ∧ ([0x41, 0x3D, 0x42, 0x43] : Stream).length % 4 = 0 ∧
    ¬ GoodAt [0x41, 0x3D, 0x42, 0x43] 1 ∧ ∀ j, j < 1 → GoodAt [0x41, 0x3D, 0x42, 0x43] j := by
  refine ⟨by decide, by decide, fun h => absurd (h 0x3D rfl) (by decide), fun j hj c h => ?_⟩
  obtain rfl : j = 0 := by omega
  obtain rfl : 0x41#8 = c := by simpa using h
  exact .inl (by decide)

/-- The premises of B64dIgnoresDiscardedBits: 'Q' and 'R', values 16 and 17; after three characters 'A' and 'D', values
0 and 3. -/
theorem witness_discarded :
    b64Inv 0x51 = some 16 ∧ b64Inv 0x52 = some 17 ∧ (16 : BitVec 6).toNat / 16 = (17 : BitVec 6).toNat / 16 ∧
    b64Inv 0x41 = some 0 ∧ b64Inv 0x44 = some 3 ∧ (0 : BitVec 6).toNat / 4 = (3 : BitVec 6).toNat / 4 := by decide

/-- The premises of CfgCommitsValidOperands: the operands of K2, size and minimum length at their lower bounds. -/
theorem witness_cfg_valid :
    2 ≤ ([0x61, 0x62] : Stream).length ∧ ([0x61, 0x62] : Stream).length ≤ 256 ∧ ([0x61, 0x62] : Stream).Nodup ∧
    1 ≤ (1 : Length).toInt ∧ (1 : Length).toInt ≤ (Config.nmax : Int) ∧
    decodeText [0x41, 0x51, 0x41, 0x3D] = .ok [1, 0] ∧ ([1, 0] : List Byte).length = 2 ∧ ([1, 0] : List Byte).Nodup ∧
    ∀ d ∈ ([1, 0] : List Byte), d.toNat < 2 := by
  refine ⟨by decide, by decide, by decide, by decide, ?_, by decide, by decide, by decide, by decide⟩
  show (1 : Int) ≤ ((Config.spareDigits + 64 : Nat) : Int)
  omega

/-- The premises of the clauses of CfgReportsTheFirstFailure: sizes 1 and 257, a duplicate, lengths 0 and -1, a text
that is not accepted, permutations too short, repeated and out of range. -/
theorem witness_cfg_failures :
    ([0x61] : Stream).length < 2 ∧ 256 < (List.replicate 257 (0x41 : Byte)).length ∧ ¬ ([0x41, 0x41] : Stream).Nodup ∧
    (0 : Length).toInt ≤ 0 ∧ (0xFFFFFFFF : Length).toInt ≤ 0 ∧ ¬ Accepted [0x41] ∧
    decodeText [0x41, 0x51, 0x3D, 0x3D] = .ok [1] ∧ decodeText [0x41, 0x51, 0x45, 0x3D] = .ok [1, 1] ∧
    decodeText [0x41, 0x41, 0x49, 0x3D] = .ok [0, 2] :=
  ⟨by decide, by rw [List.length_replicate]; decide, by decide, by decide, by decide, fun h => absurd h.1 (by decide), by decide, by decide, by decide⟩

/-- The capacity clause of CfgReportsTheFirstFailure: `NMAX` is free (R8), and a `LEN` above it exists whenever `NMAX` is
below the greatest 32-bit signed integer. -/
theorem witness_cfg_capacity (small : Config.nmax < 2 ^ 31 - 1) :
    (Config.nmax : Int) < (BitVec.ofNat 32 (Config.nmax + 1) : Length).toInt := by
  have h : (BitVec.ofNat 32 (Config.nmax + 1)).toInt = ((Config.nmax + 1 : Nat) : Int) := by
    rw [BitVec.toInt_eq_toNat_of_lt] <;> rw [BitVec.toNat_ofNat] <;> omega
  omega

/-- The premises of OutOfRangeIsAValueAtOrAboveTheSize, "ab" with [0, 2], and of CfgIsAllOrNothing. -/
theorem witness_out_of_range :
    decodeText [0x41, 0x41, 0x49, 0x3D] = .ok [0, 2] ∧
    ∃ t, exec (.cfg [0x61, 0x62] [0x41, 0x41, 0x49, 0x3D] 1) ready2 = .next t ∧ stCode t.st = 4 ∧ stSub t.st = 3 :=
  ⟨by decide, _, rfl, by decide, by decide⟩

/-- The premises of NeedIsTheLeastPower, at the ends of the ranges. -/
theorem witness_need :
    (2 ^ 64 - 1 < 2 ^ 64) ∧ (2 : Nat) ≤ 2 ∧ (256 : Nat) ≤ 256 ∧ (2 : Nat) ^ 63 < 2 ^ 64 ∧ (256 : Nat) ^ 7 < 2 ^ 64 := by
  decide

/-- The premises of the configured clauses of the command statements, of StickyAccumulatorAgrees, CasfGivesPrefixSums and
CasbGivesAdjacentDifferences, at both ends of the base. -/
theorem witness_base :
    ready2.conf.cfgv = true ∧ 2 ≤ ready2.base ∧ ready2.base ≤ 256 ∧
    (loaded base256 [255, 255]).conf.cfgv = true ∧ 2 ≤ (loaded base256 [255, 255]).base ∧
    (loaded base256 [255, 255]).base ≤ 256 := by decide

/-- The premises of the second clause of ConversionsUndoEachOther: the digits 1, 0, 1 are the value 5. -/
theorem witness_restorable :
    (∃ t, exec .d2i ready2 = .next t ∧ AnswersOk ready2 t 5 false []) ∧
    ready2.dlen = max ready2.conf.minlen (need (5 : Value).toNat ready2.base) :=
  ⟨⟨_, rfl, by decide, by decide, rfl, rfl⟩, by decide⟩

/-- The premises of PermfSubstitutesThroughPerm and PermbSubstitutesThroughInv about a digit. -/
theorem witness_digit : ready2.buf[0]? = some 1 ∧ (1 : Byte).toNat < ready2.conf.perm.length ∧
    (1 : Byte).toNat < ready2.conf.inv.length := by decide

/-- The premises of C2dLoadsTheText, at the greatest length, and of the clauses of C2dReportsTheFirstOffence: an absent
character first, and one character more than `NMAX`. -/
theorem witness_texts :
    (List.replicate Config.nmax (0x61 : Byte)).length ≤ Config.nmax ∧
    (∀ c ∈ List.replicate Config.nmax (0x61 : Byte), (readRev ready2.conf c).isSome = true) ∧
    (0 < Config.nmax ∧ ([0x24] : Stream)[0]? = some 0x24 ∧ readRev ready2.conf 0x24 = none) ∧
    Config.nmax < (List.replicate (Config.nmax + 1) (0x61 : Byte)).length ∧
    (∀ (j : Nat) (d : Byte), (List.replicate (Config.nmax + 1) (0x61 : Byte))[j]? = some d →
      (readRev ready2.conf d).isSome = true) := by
  refine ⟨by simp, fun c h => ?_, ⟨Nat.succ_pos _, rfl, by decide⟩, by simp, fun j d h => ?_⟩
  · obtain rfl := List.eq_of_mem_replicate h
    decide
  · obtain rfl := List.eq_of_mem_replicate (List.mem_of_getElem? h)
    decide

/-- The premises of DecAlwaysAnswersAValue and of the second clause of MapperRoundTrips. -/
theorem witness_text_of_the_alphabet :
    ([0x62, 0x61] : Stream).length ≤ Config.nmax ∧ (∀ c ∈ ([0x62, 0x61] : Stream), c ∈ ready2.conf.alpha) ∧
    ∃ t, exec (.c2d [0x62, 0x61]) ready2 = .next t ∧ stCode t.st = 0 := by
  refine ⟨?_, by decide, _, rfl, by decide⟩
  show 2 ≤ Config.spareDigits + 64
  omega

/-- The premises of MacrosIgnoreTheBufferTheyFind. -/
theorem witness_macros : (∃ v, Instr.enc 5 = .enc v) ∧ (∃ text, Instr.dec [0x61] = .dec text) ∧ ready2.conf.cfgv = true :=
  ⟨⟨5, rfl⟩, ⟨[0x61], rfl⟩, rfl⟩

/-- The premise of DecodeOfEncodedValueIsTheValue about the second state. -/
theorem witness_same_configuration : (loaded k2 []).conf = ready2.conf := rfl

end Sys2Proof.Tests
end

section
/-! The family `10_state.md`: what each command can do to the configuration (R33), and the state after reset (R37). -/

namespace Sys2Proof.Machine

/-! ### The integer conversion and the rounds keep the configuration -/

@[simp] theorem i2dBody_conf (v : Nat) (s : State) : (i2dBody v s).conf = s.conf := rfl

@[simp] theorem pipfBody_conf (s : State) : (pipfBody s).conf = s.conf := (pipfBody_frame s).conf

@[simp] theorem pipbBody_conf (s : State) : (pipbBody s).conf = s.conf := (pipbBody_frame s).conf

/-! ### What the three commands that need no configuration can do -/

/-- `B64E` answers the text of its bytes and cannot fail (R92). -/
theorem exec_b64e (sa : Stream) (s : State) : exec (.b64e sa) s = .next (respondText (encodeText sa) s) := rfl

/-- All that `CFG` can do (R110, R121): it commits what the construction gives, or it raises the first failure. -/
theorem exec_cfg_next {sa sb : Stream} {len : Length} {s t : State} (h : exec (.cfg sa sb len) s = .next t) :
    (∃ k, construct sa sb len = .ok k ∧ t = respondOk (commit k s)) ∨
    (∃ e, construct sa sb len = .error e ∧ t = raise e s) := by
  change execCfg sa sb len s = .next t at h
  unfold execCfg at h
  split at h
  · next k hk => exact .inl ⟨k, hk, by simpa using h.symm⟩
  · next e he => exact .inr ⟨e, he, by simpa using h.symm⟩

/-- All that `B64D` can do (R94): it delivers the bytes of the text, or it raises the offence. -/
theorem exec_b64d_next {sa : Stream} {s t : State} (h : exec (.b64d sa) s = .next t) :
    (∃ bytes, decodeText sa = .ok bytes ∧ t = respondText bytes s) ∨
    (∃ e, decodeText sa = .error e ∧ t = raise e s) := by
  change execB64d sa s = .next t at h
  unfold execB64d at h
  split at h
  · next bytes hb => exact .inl ⟨bytes, hb, by simpa using h.symm⟩
  · next e he => exact .inr ⟨e, he, by simpa using h.symm⟩

/-! ### What the fourteen commands guarded by `CFGV` do -/

/-- What a command does once it has found a configuration (R198). The three commands that need none do not come here, and
`exec_eq_whenConfigured` does not speak of them. -/
def guardedBody : Instr → State → State
  | .cfg _ _ _, s => s
  | .b64e _, s => s
  | .b64d _, s => s
  | .enc val, s => respondText (bufferText (pipfBody (i2dBody (readVal val) s))) (pipfBody (i2dBody (readVal val) s))
  | .dec sa, s =>
    match digitsOfText s.conf 0 sa with
    | .ok ds => respondValue (d2iValue (pipbBody (s.setBuf ds))) (pipbBody (s.setBuf ds))
    | .error e => loadFailed e s
  | .pipf, s => respondOk (pipfBody s)
  | .pipb, s => respondOk (pipbBody s)
  | .i2d val, s => respondOk (i2dBody (readVal val) s)
  | .d2i, s => respondValue (d2iValue s) s
  | .c2d sa, s =>
    match digitsOfText s.conf 0 sa with
    | .ok ds => respondOk (s.setBuf ds)
    | .error e => loadFailed e s
  | .d2c, s => respondText (bufferText s) s
  | .rotl, s => respondOk (rotlBody s)
  | .rotr, s => respondOk (rotrBody s)
  | .permf, s => respondOk (permfBody s)
  | .permb, s => respondOk (permbBody s)
  | .casf, s => respondOk (casfBody s)
  | .casb, s => respondOk (casbBody s)

/-- Every command but `CFG`, `B64E` and `B64D` is the test of `CFGV` before its body (R198). -/
theorem exec_eq_whenConfigured {i : Instr} (guarded : worksUnconfigured i = false) (s : State) :
    exec i s = whenConfigured s (guardedBody i) := by
  cases i with
  | cfg | b64e | b64d => cases guarded
  | _ => rfl

/-- The body of a guarded command keeps the configuration: it writes the buffer and the response only (R33). -/
@[simp] theorem guardedBody_conf (i : Instr) (s : State) : (guardedBody i s).conf = s.conf := by
  cases i with
  | c2d sa | dec sa =>
    simp only [guardedBody]
    split <;> simp
  | _ => simp [guardedBody]

/-! ### Who writes the configuration (R33) -/

/-- A command guarded by `CFGV` keeps the configuration when its body does: `NotConfigured` keeps it (R198). -/
theorem whenConfigured_keeps_conf {s t : State} {body : State → State} (h : whenConfigured s body = .next t)
    (keeps : (body s).conf = s.conf) : t.conf = s.conf := by
  rcases whenConfigured_next h with ⟨-, rfl⟩ | ⟨-, rfl⟩
  · exact keeps
  · exact raise_conf _ s

/-- No command but `CFG` writes the configuration (R33). -/
theorem exec_keeps_conf_of_ne_cfg {i : Instr} {s t : State} (h : exec i s = .next t)
    (other : ∀ sa sb len, i ≠ .cfg sa sb len) : t.conf = s.conf := by
  cases guard : worksUnconfigured i with
  | false =>
    rw [exec_eq_whenConfigured guard] at h
    exact whenConfigured_keeps_conf h (guardedBody_conf i s)
  | true =>
    cases i with
    | cfg sa sb len => exact absurd rfl (other sa sb len)
    | b64e sa =>
      rw [exec_b64e] at h
      obtain rfl := Host.Outcome.next.inj h
      exact respondText_conf _ s
    | b64d sa =>
      rcases exec_b64d_next h with ⟨bytes, -, rfl⟩ | ⟨e, -, rfl⟩
      · exact respondText_conf bytes s
      · exact raise_conf e s
    | _ => cases guard

/-- A `CFG` that answers an error writes nothing of the configuration (R33, R121): the one path that commits answers
`OK`. -/
theorem exec_cfg_keeps_conf_of_failed {sa sb : Stream} {len : Length} {s t : State}
    (h : exec (.cfg sa sb len) s = .next t) (failed : stCode t.st ≠ 0) : t.conf = s.conf := by
  rcases exec_cfg_next h with ⟨k, -, rfl⟩ | ⟨e, -, rfl⟩
  · exact absurd (by simp [okResponse]) failed
  · exact raise_conf e s

/-- Settles O14: the commands other than `CFG`, and the failed `CFG`, keep the configuration. -/
theorem configurationIsImmutable : Obligations.ConfigurationIsImmutable := by
  intro i s t h kept
  rcases kept with other | failed
  · exact exec_keeps_conf_of_ne_cfg h other
  · by_cases isCfg : ∃ sa sb len, i = .cfg sa sb len
    · obtain ⟨sa, sb, len, rfl⟩ := isCfg
      exact exec_cfg_keeps_conf_of_failed h failed
    · exact exec_keeps_conf_of_ne_cfg h fun sa sb len e => isCfg ⟨sa, sb, len, e⟩

/-! ### The state after reset (R37) -/

/-- `ST` at reset reads as the status of a plain success: `OK` without overflow (R31, R37). -/
theorem reset_st_eq_status_ok : State.reset.st = (okResponse 0 false []).status :=
  (okResponse_status 0 false []).symm

/-- Settles O10: no configuration and no digit stand after reset, and the four fields of `ST` are those of a plain
success. -/
theorem resetStateValues : Obligations.ResetStateValues := by
  unfold Obligations.ResetStateValues
  rw [reset_st_eq_status_ok, stCode_status, stSub_status, stInfo_status, stOvf_status]
  exact ⟨rfl, rfl, rfl, rfl, rfl, rfl, rfl, rfl⟩

end Sys2Proof.Machine
end

section
/-! The family `30_encoding.md`: the decoder reads the ports that the format of the opcode names, and no other (R72,
R78). -/

namespace Sys2Proof

/-! ### The opcode map -/

/-- The row that the search finds is a row of R75, and its opcode is the one looked for. -/
theorem mem_and_op_of_findRow {op : Byte} {row : OpcodeRow} (h : findRow op = some row) :
    row ∈ opcodeTable ∧ row.op = op :=
  ⟨List.mem_of_find?_eq_some h, by simpa using List.find?_some h⟩

/-! ### Streams on the port -/

/-- A stream with exactly the bytes declared is read whole (R73, R228). -/
theorem readStream_complete {declared : Length} {delivered : Stream} (hlen : delivered.length = declared.toNat) :
    readStream declared delivered = some delivered := by
  simp [readStream, ← hlen]

/-- A complete command has exactly the bytes declared on both streams (R228). -/
theorem Command.wf_iff (c : Command) :
    c.wf = true ↔ c.sa.length = c.saLen.toNat ∧ c.sb.length = c.sbLen.toNat := by
  simp [Command.wf]

theorem decodeS_complete {c : Command} (make : Stream → Instr) (complete : c.wf = true) :
    decodeS c make = .ok (make c.sa) := by
  obtain ⟨hsa, -⟩ := c.wf_iff.mp complete
  simp only [decodeS, readStream_complete hsa]

theorem decodeC_complete {c : Command} (make : Stream → Stream → Length → Instr) (complete : c.wf = true) :
    decodeC c make = .ok (make c.sa c.sb c.len) := by
  obtain ⟨hsa, hsb⟩ := c.wf_iff.mp complete
  simp only [decodeC, readStream_complete hsa, readStream_complete hsb]

/-! ### What the decoder reads under each format -/

/-- A command whose word is `op` is decoded from the ports of the format `f` alone (R72). -/
def DecodesBy (f : Format) (op : Byte) : Prop :=
  match f with
  | .N => ∃ i : Instr, ∀ c : Command, decode { c with op := op } = .ok i
  | .V => ∃ make : Value → Instr, ∀ c : Command, decode { c with op := op } = .ok (make c.val)
  | .S => ∃ make : Stream → Instr, ∀ c : Command, decode { c with op := op } = decodeS c make
  | .C => ∃ make : Stream → Stream → Length → Instr, ∀ c : Command, decode { c with op := op } = decodeC c make

/-- The decoder follows the format of every row of R75, in the order of the table. -/
theorem decodesBy_of_mem_opcodeTable : ∀ row ∈ opcodeTable, DecodesBy row.format row.op := by
  simp only [opcodeTable, List.forall_mem_cons, DecodesBy]
  exact ⟨⟨.cfg, fun _ => rfl⟩, ⟨.enc, fun _ => rfl⟩, ⟨.dec, fun _ => rfl⟩, ⟨.b64e, fun _ => rfl⟩,
    ⟨.b64d, fun _ => rfl⟩, ⟨.pipf, fun _ => rfl⟩, ⟨.pipb, fun _ => rfl⟩, ⟨.i2d, fun _ => rfl⟩,
    ⟨.d2i, fun _ => rfl⟩, ⟨.c2d, fun _ => rfl⟩, ⟨.d2c, fun _ => rfl⟩, ⟨.rotl, fun _ => rfl⟩,
    ⟨.rotr, fun _ => rfl⟩, ⟨.permf, fun _ => rfl⟩, ⟨.permb, fun _ => rfl⟩, ⟨.casf, fun _ => rfl⟩,
    ⟨.casb, fun _ => rfl⟩, nofun⟩

theorem decodesBy_of_findRow {op : Byte} {row : OpcodeRow} (h : findRow op = some row) : DecodesBy row.format op := by
  obtain ⟨hmem, rfl⟩ := mem_and_op_of_findRow h
  exact decodesBy_of_mem_opcodeTable row hmem

end Sys2Proof

namespace Sys2Proof.Machine

/-! ### The ports a format does not name (R78) -/

@[simp] theorem namedPorts_op (f : Format) (c : Command) : (namedPorts f c).op = c.op := by
  cases f <;> rfl

/-- Emptying the ports that the format does not name changes nothing for the decoder. -/
theorem decode_namedPorts {f : Format} {c : Command} (h : DecodesBy f c.op) : decode (namedPorts f c) = decode c :=
  match f, h with
  | .N, ⟨_, hdecode⟩ => (hdecode (namedPorts .N c)).trans (hdecode c).symm
  | .V, ⟨_, hdecode⟩ => (hdecode (namedPorts .V c)).trans (hdecode c).symm
  | .S, ⟨_, hdecode⟩ => (hdecode (namedPorts .S c)).trans (hdecode c).symm
  | .C, ⟨_, hdecode⟩ => (hdecode (namedPorts .C c)).trans (hdecode c).symm

/-- A complete command decodes when its opcode follows a format (R78). -/
theorem exists_decode_eq_ok {f : Format} {c : Command} (h : DecodesBy f c.op) (complete : c.wf = true) :
    ∃ i, decode c = .ok i :=
  match f, h with
  | .N, ⟨i, hdecode⟩ => ⟨i, hdecode c⟩
  | .V, ⟨make, hdecode⟩ => ⟨make c.val, hdecode c⟩
  | .S, ⟨make, hdecode⟩ => ⟨make c.sa, (hdecode c).trans (decodeS_complete make complete)⟩
  | .C, ⟨make, hdecode⟩ => ⟨make c.sa c.sb c.len, (hdecode c).trans (decodeC_complete make complete)⟩

/-- Settles O3: both commands decode as their named ports do, and the decoder of each format answers a complete
command. -/
theorem unnamedPortsAreNotRead : Obligations.UnnamedPortsAreNotRead := by
  refine ⟨fun c c' row hrow hports => ?_, fun c row hrow complete =>
    exists_decode_eq_ok (decodesBy_of_findRow hrow) complete⟩
  have hop : c.op = c'.op := by simpa using congrArg Command.op hports
  have hformat : DecodesBy row.format c.op := decodesBy_of_findRow hrow
  calc decode c = decode (namedPorts row.format c) := (decode_namedPorts hformat).symm
    _ = decode (namedPorts row.format c') := by rw [hports]
    _ = decode c' := decode_namedPorts (hop ▸ hformat)

end Sys2Proof.Machine
end

section
/-! The family `40_base64.md`: what `B64D` answers for a text it does not accept (R95 to R97, R100). -/

namespace Sys2Proof.Machine

/-! ### The error answer -/

/-- Taking an exception is the error answer of its cause (R201, R203). -/
theorem raise_answersError (e : Cause) (s : State) : AnswersError s (raise e s) e.code e.sub e.info := by
  simp [AnswersError, errorResponse]

/-- `B64D` raises the error of its reader (R94). -/
theorem exec_b64d_of_error {sa : Stream} {e : Cause} (h : decodeText sa = .error e) (s : State) :
    exec (.b64d sa) s = .next (raise e s) := by
  change execB64d sa s = _
  simp only [execB64d, h]

/-- A length that is no multiple of 4 is the error, whatever the characters are (R95). -/
theorem decodeText_of_length {text : Stream} (h : text.length % 4 ≠ 0) : decodeText text = .error .formatLength :=
  if_pos h

/-- With the length right, the reader fails as its scan does (R95, R100). -/
theorem decodeText_of_scanText_error {text : Stream} {e : Cause} (hlen : text.length % 4 = 0)
    (hscan : scanText text = .error e) : decodeText text = .error e := by
  simp [decodeText, hlen, hscan]

/-! ### The character at one index (R96, R97) -/

/-- `'='` is no character of the Base64 alphabet (R91). -/
theorem b64Inv_b64Pad : b64Inv b64Pad = none := rfl

/-- A `'='` is in its place when nothing follows it, or one more `'='` (R97). -/
theorem paddingOffends_eq_false {rest : Stream} : paddingOffends rest = false ↔ rest = [] ∨ rest = [b64Pad] := by
  rcases rest with _ | ⟨x, _ | ⟨y, tail⟩⟩ <;> simp [paddingOffends]

/-- The first character of a text does not offend: it is in the Base64 alphabet, or a `'='` the scan lets stand. -/
theorem goodAt_zero {c : Byte} {rest : Stream} :
    GoodAt (c :: rest) 0 ↔ (b64Inv c).isSome = true ∨ (c = b64Pad ∧ paddingOffends rest = false) := by
  rw [paddingOffends_eq_false]
  rcases rest with _ | ⟨x, _ | ⟨y, tail⟩⟩ <;> simp [GoodAt, b64Pad]

/-- Whether a character offends depends on what is to its right, not on what is to its left. -/
theorem goodAt_succ {c : Byte} {rest : Stream} {i : Nat} : GoodAt (c :: rest) (i + 1) ↔ GoodAt rest i := by
  simp [GoodAt, Nat.add_right_comm i 1]

/-! ### The scan finds the first offence (R100) -/

/-- The error of an offending character: the sub-name tells a misplaced `'='` from the rest (R96, R97). -/
def offence (c : Byte) : Cause := if c = b64Pad then .formatPadding else .formatCharacter c

theorem offence_code (c : Byte) : (offence c).code = 3 := by
  unfold offence
  split <;> rfl

theorem offence_sub (c : Byte) : (offence c).sub = if c = b64Pad then 3 else 2 := by
  unfold offence
  split <;> rfl

/-- The offending character stands in `INFO`, `'='` as well (R194). -/
theorem offence_info (c : Byte) : (offence c).info = c := by
  unfold offence
  split
  · next h => exact h.symm
  · rfl

/-- The scan stops at an offending character. -/
theorem scanText_cons_of_offends {c : Byte} {rest : Stream} (h : ¬ GoodAt (c :: rest) 0) :
    scanText (c :: rest) = .error (offence c) := by
  rw [goodAt_zero] at h
  by_cases hc : c = b64Pad
  · have misplaced : paddingOffends rest = true := by simpa [hc, b64Inv_b64Pad] using h
    simp [scanText, offence, hc, misplaced]
  · have foreign : b64Inv c = none := by simpa [hc] using h
    simp [scanText, offence, hc, foreign]

/-- The scan goes past a character that does not offend to the error behind it. -/
theorem scanText_cons_of_good {c : Byte} {rest : Stream} {e : Cause} (good : GoodAt (c :: rest) 0)
    (h : scanText rest = .error e) : scanText (c :: rest) = .error e := by
  rw [goodAt_zero] at good
  by_cases hc : c = b64Pad
  · have placed : paddingOffends rest = false := by simpa [hc, b64Inv_b64Pad] using good
    simp [scanText, hc, placed, h]
  · obtain ⟨v, hv⟩ : ∃ v, b64Inv c = some v := by simpa [hc, Option.isSome_iff_exists] using good
    simp [scanText, hc, hv, h]

/-- The first character from the left that offends decides the error of the scan (R100). -/
theorem scanText_first_offence {text : Stream} {i : Nat} {c : Byte} (hc : text[i]? = some c)
    (offends : ¬ GoodAt text i) (before : ∀ j < i, GoodAt text j) : scanText text = .error (offence c) := by
  induction text generalizing i with
  | nil => simp at hc
  | cons x rest ih =>
    cases i with
    | zero =>
      obtain rfl : x = c := by simpa using hc
      exact scanText_cons_of_offends offends
    | succ i =>
      have later : scanText rest = .error (offence c) :=
        ih (by simpa using hc) (fun good => offends (goodAt_succ.mpr good))
          fun j hj => goodAt_succ.mp (before (j + 1) (Nat.succ_lt_succ hj))
      exact scanText_cons_of_good (before 0 i.succ_pos) later

/-- Settles O23: the length is checked first, then the scan raises the first offence. -/
theorem b64dReportsTheFirstOffence : Obligations.B64dReportsTheFirstOffence := by
  refine fun text s => ⟨fun hlen => ?_, fun hlen i c hc offends before => ?_⟩
  · exact ⟨_, exec_b64d_of_error (decodeText_of_length hlen) s, raise_answersError .formatLength s, raise_buf _ s⟩
  · have hread : decodeText text = .error (offence c) :=
      decodeText_of_scanText_error hlen (scanText_first_offence hc offends before)
    have answer := raise_answersError (offence c) s
    rw [offence_code, offence_sub, offence_info] at answer
    exact ⟨_, exec_b64d_of_error hread s, answer, raise_buf _ s⟩

end Sys2Proof.Machine
end

section
/-! The family `41_construction.md`: the tests of `CFG` in their order (R110 to R119), the tables it builds (R115, R120)
and the configuration it commits (R32, R121). -/

namespace Sys2Proof.Machine

/-! ### The tests of steps 1 to 3 -/

theorem checkAlphabet_size {sa : Stream} (h : sa.length < 2 ∨ 256 < sa.length) :
    checkAlphabet sa = some .alphabetSize := if_pos h

theorem checkAlphabet_duplicate {sa : Stream} (least : 2 ≤ sa.length) (most : sa.length ≤ 256) (h : ¬ sa.Nodup) :
    checkAlphabet sa = some .alphabetDuplicate := by
  have size : ¬ (sa.length < 2 ∨ 256 < sa.length) := by omega
  rw [checkAlphabet, if_neg size, if_pos h]

theorem checkMinLength_config {m : Int} (h : m ≤ 0) : checkMinLength m = some .configMinLength := if_pos h

theorem checkMinLength_capacity {m : Int} (h : (Config.nmax : Int) < m) :
    checkMinLength m = some .capacityMinLength := by
  have positive : ¬ m ≤ 0 := by omega
  rw [checkMinLength, if_neg positive, if_pos h]

/-! ### The tests of steps 6 to 8 -/

/-- The values of `p` start at 0, reach `size - 1` and do not go beyond (R119). -/
def SpansRange (size : Nat) (p : List Byte) : Prop :=
  (∃ d ∈ p, d.toNat = 0) ∧ (∃ d ∈ p, d.toNat = size - 1) ∧ ∀ d ∈ p, d.toNat ≤ size - 1

/-- The test of step 8 by least and greatest value (R119) says where the values lie. -/
theorem spansRange_iff {size : Nat} {p : List Byte} :
    SpansRange size p ↔
      (p.map BitVec.toNat).min? = some 0 ∧ (p.map BitVec.toNat).max? = some (size - 1) := by
  simp [SpansRange, List.min?_eq_some_iff, List.max?_eq_some_iff]

theorem checkPermutation_length {size : Nat} {p : List Byte} (h : p.length ≠ size) :
    checkPermutation size p = some .permutationLength := if_pos h

theorem checkPermutation_notUnique {size : Nat} {p : List Byte} (length : p.length = size) (h : ¬ p.Nodup) :
    checkPermutation size p = some .permutationNotUnique := by
  simp [checkPermutation, length, h]

/-- Once length and uniqueness are right, step 8 decides (R119). -/
theorem checkPermutation_range {size : Nat} {p : List Byte} (length : p.length = size) (distinct : p.Nodup) :
    (SpansRange size p → checkPermutation size p = none) ∧
    (¬ SpansRange size p → checkPermutation size p = some .permutationOutOfRange) := by
  rw [spansRange_iff, checkPermutation, if_neg (not_not.mpr length), if_neg (not_not.mpr distinct)]
  refine ⟨fun h => if_neg ?_, fun h => if_pos ?_⟩
  · rintro (least | greatest)
    · exact least h.1
    · exact greatest h.2
  · exact not_and_or.mp h

/-- `p` is a permutation of `0 .. size-1` (R32): as many values as there are digits, all different, all below `size`. -/
structure IsPermutation (size : Nat) (p : List Byte) : Prop where
  length : p.length = size
  distinct : p.Nodup
  below : ∀ d ∈ p, d.toNat < size

/-- By counting, the values of a permutation are all the digits. -/
theorem IsPermutation.perm_range {size : Nat} {p : List Byte} (h : IsPermutation size p) :
    (p.map BitVec.toNat).Perm (List.range size) := by
  have distinct : (p.map BitVec.toNat).Nodup := h.distinct.map fun _ _ => BitVec.eq_of_toNat_eq
  have below : p.map BitVec.toNat ⊆ List.range size := by
    intro n hn
    obtain ⟨d, hd, rfl⟩ := List.mem_map.mp hn
    exact List.mem_range.mpr (h.below d hd)
  exact (distinct.subperm below).perm_of_length_le (by simp [h.length])

theorem IsPermutation.exists_mem {size n : Nat} {p : List Byte} (h : IsPermutation size p) (hn : n < size) :
    ∃ d ∈ p, d.toNat = n := by
  have : n ∈ p.map BitVec.toNat := h.perm_range.mem_iff.mpr (List.mem_range.mpr hn)
  simpa using this

theorem IsPermutation.mem_iff {size : Nat} {p : List Byte} (h : IsPermutation size p) (d : Byte) :
    d ∈ p ↔ d.toNat < size := by
  refine ⟨h.below d, fun hd => ?_⟩
  obtain ⟨x, hx, e⟩ := h.exists_mem hd
  exact BitVec.eq_of_toNat_eq e ▸ hx

theorem IsPermutation.spansRange {size : Nat} {p : List Byte} (h : IsPermutation size p) (nonempty : 0 < size) :
    SpansRange size p :=
  ⟨h.exists_mem nonempty, h.exists_mem (Nat.sub_one_lt_of_lt nonempty), fun d hd => Nat.le_sub_one_of_lt (h.below d hd)⟩

/-- Steps 6 to 8 let the permutations of `0 .. size-1` through, and nothing else. -/
theorem checkPermutation_none {size : Nat} {p : List Byte} (nonempty : 0 < size) :
    checkPermutation size p = none ↔ IsPermutation size p := by
  refine ⟨fun h => ?_, fun h => (checkPermutation_range h.length h.distinct).1 (h.spansRange nonempty)⟩
  have length : p.length = size := by
    by_contra wrong
    simp [checkPermutation_length wrong] at h
  have distinct : p.Nodup := by
    by_contra wrong
    simp [checkPermutation_notUnique length wrong] at h
  have range : SpansRange size p := by
    by_contra wrong
    simp [(checkPermutation_range length distinct).2 wrong] at h
  obtain ⟨-, -, most⟩ := range
  exact ⟨length, distinct, fun d hd => Nat.lt_of_le_sub_one nonempty (most d hd)⟩

/-! ### Step 5: the text of the permutation -/

/-- The errors of the Base64 reader share one code (R191, R194). -/
theorem Cause.code_of_isFormat {e : Cause} (h : e.isFormat = true) : e.code = 3 := by
  cases e with
  | formatLength | formatCharacter | formatPadding => rfl
  | _ => cases h

/-- Of the characters that offend, one is the first. -/
theorem exists_first_offence {text : Stream} (h : ¬ ∀ i, GoodAt text i) :
    ∃ i c, text[i]? = some c ∧ ¬ GoodAt text i ∧ ∀ j < i, GoodAt text j := by
  classical
  have offends : ∃ i, ¬ GoodAt text i := not_forall.mp h
  have first := Nat.find_spec offends
  obtain ⟨c, hc⟩ := not_forall.mp first
  exact ⟨_, c, (Classical.not_imp.mp hc).1, first, fun j hj => not_not.mp (Nat.find_min offends hj)⟩

/-- A text that is not accepted does not decode (R95 to R97, R100). -/
theorem decodeText_of_not_accepted {text : Stream} (h : ¬ Accepted text) : ∃ e, decodeText text = .error e := by
  by_cases hlen : text.length % 4 = 0
  · obtain ⟨i, c, hc, offends, before⟩ := exists_first_offence fun good => h ⟨hlen, good⟩
    exact ⟨_, decodeText_of_scanText_error hlen (scanText_first_offence hc offends before)⟩
  · exact ⟨_, decodeText_of_length hlen⟩

/-! ### The construction: the first test that fails decides (R110, R204) -/

section
variable {sa sb : Stream} {len : Length} {p : List Byte} {e : Cause}

theorem construct_of_checkAlphabet (h : checkAlphabet sa = some e) : construct sa sb len = .error e := by
  simp only [construct, h]

theorem construct_of_checkMinLength (ha : checkAlphabet sa = none) (h : checkMinLength (readLen len) = some e) :
    construct sa sb len = .error e := by
  simp only [construct, ha, h]

theorem construct_of_decodeText (ha : checkAlphabet sa = none) (hm : checkMinLength (readLen len) = none)
    (h : decodeText sb = .error e) : construct sa sb len = .error e := by
  simp only [construct, ha, hm, h]

theorem construct_of_checkPermutation (ha : checkAlphabet sa = none) (hm : checkMinLength (readLen len) = none)
    (hd : decodeText sb = .ok p) (h : checkPermutation sa.length p = some e) : construct sa sb len = .error e := by
  simp only [construct, ha, hm, hd, h]

theorem construct_of_passed (ha : checkAlphabet sa = none) (hm : checkMinLength (readLen len) = none)
    (hd : decodeText sb = .ok p) (hp : checkPermutation sa.length p = none) :
    construct sa sb len = .ok (shadowConfiguration sa (readLen len) p) := by
  simp only [construct, ha, hm, hd, hp]

/-- `CFG` raises the error of its construction (R121). -/
theorem exec_cfg_of_error (h : construct sa sb len = .error e) (s : State) :
    exec (.cfg sa sb len) s = .next (raise e s) := by
  change execCfg sa sb len s = _
  simp only [execCfg, h]

/-- `CFG` commits what its construction gives (R121). -/
theorem exec_cfg_of_ok {k : Configuration} (h : construct sa sb len = .ok k) (s : State) :
    exec (.cfg sa sb len) s = .next (respondOk (commit k s)) := by
  change execCfg sa sb len s = _
  simp only [execCfg, h]

/-- A `CFG` whose construction fails answers that error and writes nothing but `ST` (R121, R201). -/
theorem exec_cfg_answersError (h : construct sa sb len = .error e) (s : State) :
    ∃ t, exec (.cfg sa sb len) s = .next t ∧ AnswersError s t e.code e.sub e.info ∧ t.buf = s.buf :=
  ⟨_, exec_cfg_of_error h s, raise_answersError e s, raise_buf e s⟩

end

/-- No error has the code of `OK` (R191). -/
theorem Cause.code_ne_zero (e : Cause) : e.code ≠ 0 := by
  cases e <;> simp [Cause.code]

/-! ### The tables of the shadow configuration (R115, R120) -/

theorem shadowConfiguration_asize {sa : Stream} (most : sa.length ≤ 256) (m : Int) (p : List Byte) :
    (shadowConfiguration sa m p).asize.toNat = sa.length := by
  simp only [shadowConfiguration, BitVec.toNat_ofNat]
  omega

theorem shadowConfiguration_minlen (sa : Stream) {m : Int} (positive : 1 ≤ m) (p : List Byte) :
    ((shadowConfiguration sa m p).minlen : Int) = m := Int.toNat_of_nonneg (by omega)

theorem buildRev_length (sa : Stream) : (buildRev sa).length = 256 := by
  rw [buildRev, scatter_length, List.length_replicate]

/-- `REV` holds the index of each character of the alphabet (R115). -/
theorem readRev_shadowConfiguration_of_mem {sa : Stream} (distinct : sa.Nodup) (m : Int) (p : List Byte) {i : Nat}
    {c : Byte} (hc : sa[i]? = some c) : readRev (shadowConfiguration sa m p) c = some (BitVec.ofNat 8 i) := by
  have entry : (buildRev sa)[c.toNat]? = some (some (BitVec.ofNat 8 i)) :=
    scatter_key _ _ sa i c distinct hc (by rw [List.length_replicate]; exact c.isLt)
  simp [readRev, shadowConfiguration, entry]

/-- `REV` holds nothing for the other characters (R115). -/
theorem readRev_shadowConfiguration_of_not_mem {sa : Stream} (m : Int) (p : List Byte) {c : Byte} (hc : c ∉ sa) :
    readRev (shadowConfiguration sa m p) c = none := by
  have entry : (buildRev sa)[c.toNat]? = some none := by
    rw [buildRev, scatter_other _ _ sa c hc, List.getElem?_replicate, if_pos c.isLt]
  simp [readRev, shadowConfiguration, entry]

theorem buildInv_length (p : List Byte) : (buildInv p).length = p.length := by
  simp [buildInv, scatter_length]

/-- `INV` holds at each value of the permutation the index of that value (R120). -/
theorem buildInv_entry {size : Nat} {p : List Byte} (perm : IsPermutation size p) {i : Nat} {d : Byte}
    (hd : p[i]? = some d) : (buildInv p)[d.toNat]? = some (BitVec.ofNat 8 i) := by
  have below : d.toNat < size := perm.below d (List.mem_of_getElem? hd)
  exact scatter_key _ _ p i d perm.distinct hd (by simpa [perm.length] using below)

theorem readPerm_shadowConfiguration {sa : Stream} {m : Int} {p : List Byte} {i d : Byte}
    (hd : p[i.toNat]? = some d) : readPerm (shadowConfiguration sa m p) i = d := readTable_eq hd

theorem readInv_shadowConfiguration {size : Nat} {sa : Stream} {m : Int} {p : List Byte}
    (perm : IsPermutation size p) {i d : Byte} (hd : p[i.toNat]? = some d) :
    readInv (shadowConfiguration sa m p) d = i :=
  (readTable_eq (buildInv_entry perm hd)).trans (by simp)

/-- `INV` undoes `PERM` (R120). -/
theorem readInv_readPerm_shadowConfiguration {size : Nat} {p : List Byte} (perm : IsPermutation size p) (sa : Stream)
    (m : Int) {i : Byte} (hi : i.toNat < size) :
    readInv (shadowConfiguration sa m p) (readPerm (shadowConfiguration sa m p) i) = i := by
  obtain ⟨d, hd⟩ : ∃ d, p[i.toNat]? = some d := ⟨_, List.getElem?_eq_getElem (perm.length ▸ hi)⟩
  rw [readPerm_shadowConfiguration hd, readInv_shadowConfiguration perm hd]

/-- `PERM` undoes `INV` (R120): every digit stands somewhere in the permutation, at an index that fits a byte. -/
theorem readPerm_readInv_shadowConfiguration {size : Nat} {p : List Byte} (perm : IsPermutation size p)
    (most : size ≤ 256) (sa : Stream) (m : Int) {d : Byte} (hd : d.toNat < size) :
    readPerm (shadowConfiguration sa m p) (readInv (shadowConfiguration sa m p) d) = d := by
  obtain ⟨n, hn⟩ := List.mem_iff_getElem?.mp ((perm.mem_iff d).mpr hd)
  have below : n < size := perm.length ▸ (List.getElem?_eq_some_iff.mp hn).1
  have index : (BitVec.ofNat 8 n).toNat = n := by rw [BitVec.toNat_ofNat]; omega
  have entry : p[(BitVec.ofNat 8 n).toNat]? = some d := by rw [index, hn]
  rw [readInv_shadowConfiguration perm entry, readPerm_shadowConfiguration entry]

/-- Operands that pass every test give a legal configuration (R32). -/
theorem shadowConfiguration_legal {sa : Stream} {m : Int} {p : List Byte} (least : 2 ≤ sa.length)
    (most : sa.length ≤ 256) (distinct : sa.Nodup) (positive : 1 ≤ m) (capacity : m ≤ (Config.nmax : Int))
    (perm : IsPermutation sa.length p) : (shadowConfiguration sa m p).Legal := by
  have size : (shadowConfiguration sa m p).asize.toNat = sa.length := shadowConfiguration_asize most m p
  have minlen := shadowConfiguration_minlen sa positive p
  exact {
    size_least := size ▸ least
    size_most := size ▸ most
    minlen_least := by omega
    minlen_most := by omega
    alpha_length := size.symm
    alpha_distinct := distinct
    rev_length := buildRev_length sa
    rev_present := fun i c hc => readRev_shadowConfiguration_of_mem distinct m p hc
    rev_absent := fun c hc => readRev_shadowConfiguration_of_not_mem m p hc
    perm_length := perm.length.trans size.symm
    perm_onto := fun d => size ▸ perm.mem_iff d
    inv_length := (buildInv_length p).trans (perm.length.trans size.symm)
    inv_perm := fun d hd => readInv_readPerm_shadowConfiguration perm sa m (size ▸ hd)
    perm_inv := fun d hd => readPerm_readInv_shadowConfiguration perm most sa m (size ▸ hd) }

/-- All that the construction commits is legal (R32, R121). -/
theorem construct_ok_legal {sa sb : Stream} {len : Length} {k : Configuration} (h : construct sa sb len = .ok k) :
    k.cfgv = true ∧ k.Legal := by
  obtain ⟨p, ha, hm, -, hp, rfl⟩ := construct_ok h
  obtain ⟨least, most, distinct⟩ := checkAlphabet_none.mp ha
  obtain ⟨positive, capacity⟩ := checkMinLength_none.mp hm
  have perm : IsPermutation sa.length p := (checkPermutation_none (by omega)).mp hp
  exact ⟨rfl, shadowConfiguration_legal least most distinct positive capacity perm⟩

/-- A plain success is the answer `OK` without results (R74). -/
theorem respondOk_commit_answersOk (k : Configuration) (s : State) :
    AnswersOk s (respondOk (commit k s)) 0 false [] :=
  ⟨okResponse_status 0 false [], rfl, rfl, rfl⟩

/-- Settles O26: the operands pass every test, so the shadow configuration with its two built tables is committed. -/
theorem cfgCommitsValidOperands : Obligations.CfgCommitsValidOperands := by
  intro sa sb len p s least most distinct positive capacity hd length unique below
  have perm : IsPermutation sa.length p := ⟨length, unique, below⟩
  have built : construct sa sb len = .ok (shadowConfiguration sa (readLen len) p) :=
    construct_of_passed (checkAlphabet_none.mpr ⟨least, most, distinct⟩)
      (checkMinLength_none.mpr ⟨positive, capacity⟩) hd ((checkPermutation_none (by omega)).mpr perm)
  exact ⟨_, exec_cfg_of_ok built s, respondOk_commit_answersOk _ s, rfl, rfl, rfl,
    shadowConfiguration_asize most _ p, shadowConfiguration_minlen sa positive p, rfl, rfl,
    (buildInv_length p).trans length, fun _ _ hc => readRev_shadowConfiguration_of_mem distinct _ p hc,
    fun _ hc => readRev_shadowConfiguration_of_not_mem _ p hc, fun _ _ hi => buildInv_entry perm hi⟩

/-- Settles O27: each clause is one test that fails behind tests that pass. -/
theorem cfgReportsTheFirstFailure : Obligations.CfgReportsTheFirstFailure := by
  intro sa sb len s
  refine ⟨fun size => ?_, fun least most duplicate => ?_, fun least most distinct nonpositive => ?_,
    fun least most distinct large => ?_, fun least most distinct positive capacity => ?_⟩
  · exact exec_cfg_answersError (construct_of_checkAlphabet (checkAlphabet_size size)) s
  · exact exec_cfg_answersError (construct_of_checkAlphabet (checkAlphabet_duplicate least most duplicate)) s
  · have alphabet : checkAlphabet sa = none := checkAlphabet_none.mpr ⟨least, most, distinct⟩
    exact exec_cfg_answersError (construct_of_checkMinLength alphabet (checkMinLength_config nonpositive)) s
  · have alphabet : checkAlphabet sa = none := checkAlphabet_none.mpr ⟨least, most, distinct⟩
    exact exec_cfg_answersError (construct_of_checkMinLength alphabet (checkMinLength_capacity large)) s
  · have alphabet : checkAlphabet sa = none := checkAlphabet_none.mpr ⟨least, most, distinct⟩
    have minLength : checkMinLength (readLen len) = none := checkMinLength_none.mpr ⟨positive, capacity⟩
    refine ⟨fun refused => ?_, fun p hd => ?_⟩
    · obtain ⟨e, he⟩ := decodeText_of_not_accepted refused
      refine ⟨_, exec_cfg_of_error (construct_of_decodeText alphabet minLength he) s, exec_b64d_of_error he s, ?_⟩
      exact (raise_answersError e s).1.trans (Cause.code_of_isFormat (decodeText_error he))
    · have permutation {e : Cause} (h : checkPermutation sa.length p = some e) :
          construct sa sb len = .error e := construct_of_checkPermutation alphabet minLength hd h
      refine ⟨fun wrong => ?_, fun length repeated => ?_, fun length unique outside => ?_⟩
      · exact exec_cfg_answersError (permutation (checkPermutation_length wrong)) s
      · exact exec_cfg_answersError (permutation (checkPermutation_notUnique length repeated)) s
      · exact exec_cfg_answersError (permutation ((checkPermutation_range length unique).2 outside)) s

/-- Settles O28: a `CFG` that succeeds commits what the construction gave, and one that fails raises its error. -/
theorem cfgIsAllOrNothing : Obligations.CfgIsAllOrNothing := by
  intro sa sb len s t h
  rcases exec_cfg_next h with ⟨k, built, rfl⟩ | ⟨e, -, rfl⟩
  · obtain ⟨configured, legal⟩ := construct_ok_legal built
    exact .inl ⟨stCode_status _, configured, legal, rfl⟩
  · have code : stCode (raise e s).st = e.code := (raise_answersError e s).1
    exact .inr ⟨code ▸ e.code_ne_zero, raise_conf e s, raise_buf e s⟩

end Sys2Proof.Machine
end

section
/-! The family `42_digit_conversion.md`: the digit count (R130), what `I2D` writes (R131) and what `D2I` reads (R134). -/

namespace Sys2Proof.Machine

/-! ### The two answers of a command guarded by `CFGV` (R198) -/

/-- Without a configuration a guarded command raises `NotConfigured`, which keeps the buffer. -/
theorem refusesUnconfigured_of_guarded {i : Instr} (guarded : worksUnconfigured i = false) (s : State) :
    RefusesUnconfigured i s := fun unconfigured =>
  ⟨raise .notConfigured s, (exec_eq_whenConfigured guarded s).trans (whenConfigured_false unconfigured),
    raise_answersError .notConfigured s, raise_buf _ s⟩

/-- With a configuration a guarded command runs its body. -/
theorem exec_of_configured {i : Instr} (guarded : worksUnconfigured i = false) {s : State}
    (configured : s.conf.cfgv = true) : exec i s = .next (guardedBody i s) :=
  (exec_eq_whenConfigured guarded s).trans (whenConfigured_true configured)

/-- A body that leaves the host's side alone and then responds has answered `OK` without results (R74). -/
theorem respondOk_answersOk {s t : State} (busy : t.busy = s.busy) (port : t.port = s.port) :
    AnswersOk s (respondOk t) 0 false [] :=
  ⟨okResponse_status 0 false [], rfl, busy, port⟩

/-- The answer of an exact value: the value modulo `2^64`, and whether it was `2^64` or more (R134). -/
theorem respondValue_answersOk (acc : Nat) (s : State) :
    AnswersOk s (respondValue acc s) (BitVec.ofNat 64 acc) (decide (2 ^ 64 ≤ acc)) [] :=
  ⟨okResponse_status _ _ [], rfl, rfl, rfl⟩

/-! ### The digit count (R130) -/

/-- The search stops at a power above the value when there is one within its fuel. -/
theorem lt_pow_leastPowerAbove {base v fuel k : Nat} (within : v < base ^ (k + fuel)) :
    v < base ^ leastPowerAbove base v fuel k := by
  induction fuel generalizing k with
  | zero => exact within
  | succ fuel ih =>
    rw [leastPowerAbove]
    split
    · assumption
    · exact ih (by rwa [Nat.add_right_comm])

/-- The search passes over no power above the value. -/
theorem leastPowerAbove_le {base v fuel k j : Nat} (from_k : k ≤ j) (above : v < base ^ j) :
    leastPowerAbove base v fuel k ≤ j := by
  induction fuel generalizing k with
  | zero => exact from_k
  | succ fuel ih =>
    rw [leastPowerAbove]
    split
    · exact from_k
    · next not_above =>
      have : k ≠ j := fun e => not_above (e ▸ above)
      exact ih (by omega)

theorem need_le {v B k : Nat} (above : v < B ^ k) : need v B ≤ k :=
  leastPowerAbove_le (Nat.zero_le k) above

section
variable {v B : Nat}

/-- The fuel suffices: `2^64`, and so the 64th power of every base from 2 on, is above a 64-bit value. -/
theorem lt_pow_64 (word : v < 2 ^ 64) (base : 2 ≤ B) : v < B ^ 64 :=
  word.trans_le (Nat.pow_le_pow_left base 64)

theorem lt_pow_need (word : v < 2 ^ 64) (base : 2 ≤ B) : v < B ^ need v B :=
  lt_pow_leastPowerAbove (by simpa using lt_pow_64 word base)

/-- Powers up to the value are below the count, because powers of the base grow with their exponent. -/
theorem lt_need {k : Nat} (word : v < 2 ^ 64) (base : 2 ≤ B) (upTo : B ^ k ≤ v) : k < need v B :=
  (Nat.pow_lt_pow_iff_right base).mp (upTo.trans_lt (lt_pow_need word base))

/-- Two neighbouring powers around the value give its count. -/
theorem need_eq_succ {k : Nat} (word : v < 2 ^ 64) (base : 2 ≤ B) (upTo : B ^ k ≤ v) (above : v < B ^ (k + 1)) :
    need v B = k + 1 :=
  le_antisymm (need_le above) (lt_need word base upTo)

end

/-- A power of the base needs one digit more than its exponent (R130). -/
theorem need_pow {k B : Nat} (base : 2 ≤ B) (word : B ^ k < 2 ^ 64) : need (B ^ k) B = k + 1 :=
  need_eq_succ word base le_rfl (Nat.pow_lt_pow_right base k.lt_succ_self)

/-- The value just below a power needs as many digits as its exponent (R130). -/
theorem need_pow_sub_one {k B : Nat} (base : 2 ≤ B) (word : B ^ k < 2 ^ 64) : need (B ^ k - 1) B = k := by
  cases k with
  | zero => exact Nat.le_zero.mp (need_le (by simp))
  | succ j =>
    have grows : B ^ j < B ^ (j + 1) := Nat.pow_lt_pow_right base j.lt_succ_self
    exact need_eq_succ (by omega) base (by omega) (by omega)

/-- Settles O30: the search of `need` finds the least power; the exact values lie between two neighbouring powers. -/
theorem needIsTheLeastPower : Obligations.NeedIsTheLeastPower := by
  refine ⟨fun v B word base _ => ⟨lt_pow_need word base, fun k => need_le, need_le (lt_pow_64 word base)⟩,
    fun k B base _ word => ⟨need_pow base word, need_pow_sub_one base word⟩, ?_, ?_, ?_⟩
  · exact need_eq_succ (k := 63) (by omega) (by omega) (by omega) (by omega)
  · exact need_eq_succ (k := 19) (by omega) (by omega) (by omega) (by omega)
  · exact need_eq_succ (k := 7) (by omega) (by omega) (by omega) (by omega)

/-! ### `I2D` (R131) -/

theorem digitsOf_getElem? {base v n i : Nat} (h : i < n) :
    (digitsOf base v n)[i]? = some (BitVec.ofNat 8 (v / base ^ (n - 1 - i) % base)) := by
  simp [digitsOf, h]

/-- Settles O31: the buffer takes the digits of `i2dBody`, and the response changes `ST` alone. -/
theorem i2dWritesTheDigits : Obligations.I2dWritesTheDigits := by
  intro v s
  refine ⟨refusesUnconfigured_of_guarded rfl s, fun configured => ?_⟩
  have count : (respondOk (i2dBody v.toNat s)).dlen = max s.conf.minlen (need v.toNat s.base) :=
    digitsOf_length _ _ _
  refine ⟨respondOk (i2dBody v.toNat s), exec_of_configured rfl configured, respondOk_answersOk rfl rfl,
    i2dBody_conf v.toNat s, rfl, count, fun i hi => ?_⟩
  rw [count] at hi ⊢
  exact digitsOf_getElem? hi

/-! ### `D2I` (R134) -/

theorem digitsValue_append_singleton (base : Nat) (ds : List Byte) (d : Byte) :
    digitsValue base (ds ++ [d]) = digitsValue base ds * base + d.toNat := by
  simp [digitsValue]

/-- One more digit on the right raises the weight of every digit before it by one power, and weighs 1 itself. -/
theorem weightedSum_append_singleton (base : Nat) (ds : List Byte) (d : Byte) :
    weightedSum base (ds ++ [d]) = weightedSum base ds * base + d.toNat := by
  have shifted : ∀ i ∈ Finset.range ds.length,
      ((ds ++ [d]).getD i 0).toNat * base ^ (ds.length - i) =
        (ds.getD i 0).toNat * base ^ (ds.length - 1 - i) * base := by
    intro i hi
    rw [Finset.mem_range] at hi
    have exponent : ds.length - i = ds.length - 1 - i + 1 := by omega
    rw [List.getD_append _ _ _ _ hi, exponent, Nat.pow_succ, Nat.mul_assoc]
  have last : (ds ++ [d]).getD ds.length 0 = d := by simp
  rw [weightedSum, List.length_append, List.length_singleton, Nat.add_sub_cancel, Finset.sum_range_succ, last,
    Finset.sum_congr rfl shifted, ← Finset.sum_mul, Nat.sub_self, Nat.pow_zero, Nat.mul_one, weightedSum]

/-- Accumulating from the left, `value * base + digit`, gives the weighted sum (R134, R135). -/
theorem digitsValue_eq_weightedSum (base : Nat) (ds : List Byte) : digitsValue base ds = weightedSum base ds := by
  induction ds using List.reverseRecOn with
  | nil => rfl
  | append_singleton ds d ih => rw [digitsValue_append_singleton, weightedSum_append_singleton, ih]

/-- Settles O34: `D2I` answers the exact value of the buffer, which is the weighted sum. -/
theorem d2iAnswersTheWeightedSum : Obligations.D2iAnswersTheWeightedSum := by
  intro s
  refine ⟨refusesUnconfigured_of_guarded rfl s, fun configured => ?_⟩
  rw [← digitsValue_eq_weightedSum]
  exact ⟨respondValue (d2iValue s) s, exec_of_configured rfl configured, respondValue_conf _ s, respondValue_buf _ s,
    rfl, respondValue_answersOk _ s⟩

end Sys2Proof.Machine
end

section
/-! The family `43_digit_units.md`: where the rotations move a digit (R141, R143), the substitutions through `PERM` and
`INV` (R145, R147), and the closed forms of the cascades (R149, R150). -/

namespace Sys2Proof.Machine

/-! ### What the six digit units share: each writes the digits of the buffer and nothing else (R140) -/

/-- A configured command whose body replaces the buffer by as many digits answers `OK` with those digits. -/
theorem exec_setBuf_of_configured {i : Instr} {s : State} {ds : List Byte} (guarded : worksUnconfigured i = false)
    (configured : s.conf.cfgv = true) (body : guardedBody i s = respondOk (s.setBuf ds)) (length : ds.length = s.dlen) :
    ∃ t, exec i s = .next t ∧ AnswersOk s t 0 false [] ∧ t.conf = s.conf ∧ t.dlen = s.dlen ∧ t.buf = ds :=
  ⟨respondOk (s.setBuf ds), body ▸ exec_of_configured guarded configured, respondOk_answersOk rfl rfl, rfl, length, rfl⟩

/-! ### The rotations (R141, R143) -/

theorem rotateLeft_eq_rotate (ds : List Byte) : rotateLeft ds = ds.rotate 1 := by
  cases ds <;> simp [rotateLeft]

theorem rotateLeft_getElem? {ds : List Byte} {i : Nat} (h : i < ds.length) :
    (rotateLeft ds)[i]? = ds[(i + 1) % ds.length]? := by
  rw [rotateLeft_eq_rotate, List.getElem?_rotate h]

/-- One place to the right is all places but one to the left: both bring the last digit to the front. -/
theorem rotateRight_eq_rotate (ds : List Byte) : rotateRight ds = ds.rotate (ds.length - 1) := by
  rcases List.eq_nil_or_concat ds with rfl | ⟨init, last, rfl⟩
  · rfl
  · rw [List.concat_eq_append, rotateRight_append, List.length_append, List.length_singleton, Nat.add_sub_cancel,
      List.rotate_append_length_eq, List.singleton_append]

theorem rotateRight_getElem? {ds : List Byte} {i : Nat} (h : i < ds.length) :
    (rotateRight ds)[i]? = ds[(i + (ds.length - 1)) % ds.length]? := by
  rw [rotateRight_eq_rotate, List.getElem?_rotate h]

/-- Settles O37: `ROTL` writes the rotated buffer, and a rotation to the left reads one index further on. -/
theorem rotlMovesTheFirstDigitToTheEnd : Obligations.RotlMovesTheFirstDigitToTheEnd := by
  intro s
  refine ⟨refusesUnconfigured_of_guarded rfl s, fun configured => ?_⟩
  obtain ⟨t, run, ok, conf, dlen, buf⟩ :=
    exec_setBuf_of_configured (i := .rotl) rfl configured rfl (rotateLeft_length s.buf)
  exact ⟨t, run, ok, conf, rfl, dlen, fun i hi => buf ▸ rotateLeft_getElem? hi⟩

/-- Settles O38: `ROTR` writes the rotated buffer, and a rotation to the right reads one index before, cyclically. -/
theorem rotrMovesTheLastDigitToTheFront : Obligations.RotrMovesTheLastDigitToTheFront := by
  intro s
  refine ⟨refusesUnconfigured_of_guarded rfl s, fun configured => ?_⟩
  obtain ⟨t, run, ok, conf, dlen, buf⟩ :=
    exec_setBuf_of_configured (i := .rotr) rfl configured rfl (rotateRight_length s.buf)
  exact ⟨t, run, ok, conf, rfl, dlen, fun i hi => buf ▸ rotateRight_getElem? hi⟩

/-! ### The substitutions (R145, R147) -/

/-- A digit that the table has an entry for is replaced, where it stands, by that entry. -/
theorem substitute_readTable_getElem? {name : TableName} {entries ds : List Byte} {i : Nat} {d : Byte}
    (digit : ds[i]? = some d) (fits : d.toNat < entries.length) :
    (substitute (readTable name entries) ds)[i]? = entries[d.toNat]? := by
  have entry : entries[d.toNat]? = some entries[d.toNat] := List.getElem?_eq_getElem fits
  rw [substitute, List.getElem?_map, digit, Option.map_some, readTable_eq entry, entry]

/-- Settles O40: `PERMF` writes the buffer substituted through `PERM`. -/
theorem permfSubstitutesThroughPerm : Obligations.PermfSubstitutesThroughPerm := by
  intro s
  refine ⟨refusesUnconfigured_of_guarded rfl s, fun configured => ?_⟩
  obtain ⟨t, run, ok, conf, dlen, buf⟩ :=
    exec_setBuf_of_configured (i := .permf) rfl configured rfl (substitute_length _ s.buf)
  exact ⟨t, run, ok, conf, rfl, dlen, fun i d digit fits => buf ▸ substitute_readTable_getElem? digit fits⟩

/-- Settles O41: `PERMB` writes the buffer substituted through `INV`. -/
theorem permbSubstitutesThroughInv : Obligations.PermbSubstitutesThroughInv := by
  intro s
  refine ⟨refusesUnconfigured_of_guarded rfl s, fun configured => ?_⟩
  obtain ⟨t, run, ok, conf, dlen, buf⟩ :=
    exec_setBuf_of_configured (i := .permb) rfl configured rfl (substitute_length _ s.buf)
  exact ⟨t, run, ok, conf, rfl, dlen, fun i d digit fits => buf ▸ substitute_readTable_getElem? digit fits⟩

/-! ### The forward cascade (R149) -/

section
variable {base : Nat}

/-- A residue of a legal base fits a digit register (R152). -/
theorem toNat_ofNat_mod (low : 0 < base) (high : base ≤ 256) (x : Nat) :
    (BitVec.ofNat 8 (x % base)).toNat = x % base := by
  have residue : x % base < base := Nat.mod_lt x low
  rw [BitVec.toNat_ofNat]
  exact Nat.mod_eq_of_lt (by omega)

/-- From the accumulator `last`, the digit at `i` is `last` and the digits up to `i`, summed and reduced once: each
reduction on the way disappears in the next. -/
theorem cascadeForward_getElem? (low : 0 < base) (high : base ≤ 256) {ds : List Byte} {i : Nat} (last : Byte)
    (h : i < ds.length) :
    ((cascadeForward base last ds)[i]?).map BitVec.toNat =
      some ((last.toNat + ∑ j ∈ Finset.range (i + 1), (ds.getD j 0).toNat) % base) := by
  induction ds generalizing i last with
  | nil => exact absurd h (Nat.not_lt_zero i)
  | cons d rest ih =>
    cases i with
    | zero => simp [cascadeForward, toNat_ofNat_mod low high, Nat.add_comm]
    | succ i =>
      rw [cascadeForward, List.getElem?_cons_succ, ih _ (Nat.lt_of_succ_lt_succ h), toNat_ofNat_mod low high,
        Nat.mod_add_mod, Finset.sum_range_succ' _ (i + 1)]
      simp only [List.getD_cons_succ, List.getD_cons_zero]
      congr 2
      omega

/-! ### The backward cascade (R150) -/

/-- The same for a difference, whose residue is that of the integers, never negative (R152). -/
theorem toNat_ofInt_emod (low : 0 < base) (high : base ≤ 256) (x : Int) :
    ((BitVec.ofInt 8 (x % (base : Int))).toNat : Int) = x % (base : Int) := by
  have nonneg : 0 ≤ x % (base : Int) := Int.emod_nonneg x (by omega)
  have residue : x % (base : Int) < base := Int.emod_lt_of_pos x (by omega)
  rw [BitVec.toNat_ofInt]
  omega

/-- From the accumulator `last`, the digit at `i` is its difference to the digit before it, and to `last` at the front. -/
theorem cascadeBackward_getElem? (low : 0 < base) (high : base ≤ 256) {ds : List Byte} {i : Nat} (last : Byte)
    (h : i < ds.length) :
    ((cascadeBackward base last ds)[i]?).map (fun d => (d.toNat : Int)) =
      some ((((ds.getD i 0).toNat : Int) - (if i = 0 then (last.toNat : Int) else ((ds.getD (i - 1) 0).toNat : Int))) %
        (base : Int)) := by
  induction ds generalizing i last with
  | nil => exact absurd h (Nat.not_lt_zero i)
  | cons t rest ih =>
    cases i with
    | zero =>
      rw [cascadeBackward, List.getElem?_cons_zero, Option.map_some, toNat_ofInt_emod low high, Int.add_emod_right]
      rfl
    | succ i =>
      rw [cascadeBackward, List.getElem?_cons_succ, ih t (Nat.lt_of_succ_lt_succ h)]
      cases i <;> simp

end

/-- Settles O43: `CASF` runs the forward cascade from `LAST = 0`. -/
theorem casfGivesPrefixSums : Obligations.CasfGivesPrefixSums := by
  intro s
  refine ⟨refusesUnconfigured_of_guarded rfl s, fun configured least most => ?_⟩
  obtain ⟨t, run, ok, conf, dlen, buf⟩ :=
    exec_setBuf_of_configured (i := .casf) rfl configured rfl (cascadeForward_length s.base 0 s.buf)
  refine ⟨t, run, ok, conf, rfl, dlen, fun i hi => ?_⟩
  simpa [buf] using cascadeForward_getElem? (by omega) most 0 hi

/-- Settles O44: `CASB` runs the backward cascade from `LAST = 0`. -/
theorem casbGivesAdjacentDifferences : Obligations.CasbGivesAdjacentDifferences := by
  intro s
  refine ⟨refusesUnconfigured_of_guarded rfl s, fun configured least most => ?_⟩
  obtain ⟨t, run, ok, conf, dlen, buf⟩ :=
    exec_setBuf_of_configured (i := .casb) rfl configured rfl (cascadeBackward_length s.base 0 s.buf)
  refine ⟨t, run, ok, conf, rfl, dlen, fun i hi => ?_⟩
  rw [buf]
  exact cascadeBackward_getElem? (by omega) most 0 hi

end Sys2Proof.Machine
end

section
/-! The family `44_char_mapping.md`: the text `D2C` spells (R161, R162), and the first offence of a text given to `C2D`
(R163, R164). -/

namespace Sys2Proof.Machine

/-! ### `D2C` (R161, R162) -/

/-- A text answered on an unchanged block is the success response with that text (R74). -/
theorem respondText_answersOk (so : Stream) (s : State) : AnswersOk s (respondText so s) 0 false so :=
  ⟨okResponse_status 0 false so, rfl, rfl, rfl⟩

/-- A digit of a configured block has its character: `ALPHA` holds as many entries as the base says (R28, R58). -/
theorem State.Ready.digit_lt_alpha_length {s : State} (ready : s.Ready) {d : Byte} (digit : d ∈ s.buf) :
    d.toNat < s.conf.alpha.length := by
  rw [ready.legal.alpha_length]
  exact ready.digits_below d digit

@[simp] theorem bufferText_length (s : State) : (bufferText s).length = s.dlen := List.length_map _

/-- Every character spelt is a member of the alphabet (R162). -/
theorem mem_alpha_of_mem_bufferText {s : State} (ready : s.Ready) {c : Byte} (spelt : c ∈ bufferText s) :
    c ∈ s.conf.alpha := by
  obtain ⟨d, digit, rfl⟩ := List.mem_map.mp spelt
  exact readTable_mem (ready.digit_lt_alpha_length digit)

/-- The text is the buffer substituted through `ALPHA`, each digit where it stands (R161). -/
theorem bufferText_getElem? {s : State} (ready : s.Ready) {i : Nat} {d : Byte} (digit : s.buf[i]? = some d) :
    (bufferText s)[i]? = s.conf.alpha[d.toNat]? :=
  substitute_readTable_getElem? digit (ready.digit_lt_alpha_length (List.mem_of_getElem? digit))

/-- Settles O46: `D2C` answers the text of the buffer, and the response changes `ST` alone. -/
theorem d2cSpellsTheBuffer : Obligations.D2cSpellsTheBuffer := by
  intro s
  refine ⟨refusesUnconfigured_of_guarded rfl s, fun ready => ?_⟩
  exact ⟨respondText (bufferText s) s, bufferText s, exec_of_configured rfl ready.configured,
    respondText_answersOk _ s, respondText_conf _ s, respondText_buf _ s, rfl, bufferText_length s,
    fun c => mem_alpha_of_mem_bufferText ready, fun i d => bufferText_getElem? ready⟩

/-! ### The failures of `C2D` (R163, R164) -/

section
variable {k : Configuration} {i : Nat} {c : Byte} {rest : Stream} {e : Cause}

/-- A character at an index from `NMAX` on is the capacity offence, whatever it is. -/
theorem digitsOfText_cons_of_full (full : Config.nmax ≤ i) : digitsOfText k i (c :: rest) = .error .capacityText := by
  simp [digitsOfText, full]

/-- A character outside the alphabet below that index is the character offence. -/
theorem digitsOfText_cons_of_absent (below : i < Config.nmax) (absent : readRev k c = none) :
    digitsOfText k i (c :: rest) = .error (.characterNotInAlphabet c) := by
  simp [digitsOfText, below.not_ge, absent]

/-- The loader goes past a character that does not offend to the offence behind it. -/
theorem digitsOfText_cons_of_present (below : i < Config.nmax) (present : (readRev k c).isSome = true)
    (later : digitsOfText k (i + 1) rest = .error e) : digitsOfText k i (c :: rest) = .error e := by
  obtain ⟨d, entry⟩ := Option.isSome_iff_exists.mp present
  simp [digitsOfText, below.not_ge, entry, later]

/-- The offence met after `n` characters that do not offend is the error of the whole text: the first from the left
decides (R164). -/
theorem digitsOfText_error_of_drop {text : Stream} {n : Nat} (below : i + n ≤ Config.nmax)
    (present : ∀ (j : Nat) (d : Byte), j < n → text[j]? = some d → (readRev k d).isSome = true)
    (fails : digitsOfText k (i + n) (text.drop n) = .error e) : digitsOfText k i text = .error e := by
  induction n generalizing i text with
  | zero => exact fails
  | succ n ih =>
    cases text with
    | nil => cases fails
    | cons c rest =>
      have later : digitsOfText k (i + 1) rest = .error e :=
        ih (by omega) (fun j d hj => present (j + 1) d (Nat.succ_lt_succ hj))
          (by simpa [Nat.add_assoc, Nat.add_comm 1 n] using fails)
      exact digitsOfText_cons_of_present (by omega) (present 0 c n.succ_pos rfl) later

/-- The first character outside the alphabet, at an index below `NMAX`, is the error of the text. -/
theorem digitsOfText_error_of_absent {text : Stream} (below : i < Config.nmax) (char : text[i]? = some c)
    (absent : readRev k c = none)
    (before : ∀ (j : Nat) (d : Byte), j < i → text[j]? = some d → (readRev k d).isSome = true) :
    digitsOfText k 0 text = .error (.characterNotInAlphabet c) := by
  refine digitsOfText_error_of_drop (n := i) (by omega) before ?_
  rw [Nat.zero_add, List.drop_eq_getElem?_toList_append, char]
  exact digitsOfText_cons_of_absent below absent

/-- When there is none, a text of more than `NMAX` characters fails at index `NMAX`. -/
theorem digitsOfText_error_of_long {text : Stream} (long : Config.nmax < text.length)
    (before : ∀ (j : Nat) (d : Byte), j < Config.nmax → text[j]? = some d → (readRev k d).isSome = true) :
    digitsOfText k 0 text = .error .capacityText := by
  refine digitsOfText_error_of_drop (n := Config.nmax) (by omega) before ?_
  rw [Nat.zero_add, List.drop_eq_getElem_cons long]
  exact digitsOfText_cons_of_full le_rfl

/-- A text with an offence makes a configured `C2D` answer that error and empties the buffer (R164, R202). -/
theorem exec_c2d_answersError {text : Stream} {s : State} (configured : s.conf.cfgv = true)
    (fails : digitsOfText s.conf 0 text = .error e) :
    ∃ t, exec (.c2d text) s = .next t ∧ AnswersError s t e.code e.sub e.info ∧ t.dlen = 0 := by
  have body : guardedBody (.c2d text) s = loadFailed e s := by simp only [guardedBody, fails]
  exact ⟨loadFailed e s, body ▸ exec_of_configured rfl configured, raise_answersError e (s.setBuf []), rfl⟩

end

/-- Settles O48: the loader stops at the first offence, and the command raises it with the buffer emptied. -/
theorem c2dReportsTheFirstOffence : Obligations.C2dReportsTheFirstOffence := fun _ _ configured =>
  ⟨fun _ _ below char absent before =>
    exec_c2d_answersError configured (digitsOfText_error_of_absent below char absent before),
   fun long before => exec_c2d_answersError configured (digitsOfText_error_of_long long before)⟩

end Sys2Proof.Machine
end

section
/-! The family `45_pipeline.md`: the rounds of `PIPF` and `PIPB` as micro-operation commands issued one by one (R171,
R172, R174), and `ENC` and `DEC` as their expansions (R177, R179). -/

namespace Sys2Proof.Machine

/-! ### Commands in sequence -/

theorem runAll_cons_of_next {i : Instr} {s t : State} (run : exec i s = .next t) (rest : List Instr) :
    runAll (i :: rest) s = runAll rest t := by
  simp only [runAll, run]

/-- On a configured block a guarded command is its body, and the commands after it find what the body left. -/
theorem runAll_cons_of_configured {i : Instr} (guarded : worksUnconfigured i = false) {s : State}
    (configured : s.conf.cfgv = true) (rest : List Instr) :
    runAll (i :: rest) s = runAll rest (guardedBody i s) :=
  runAll_cons_of_next (exec_of_configured guarded configured) rest

/-- Without a configuration any number of guarded commands leaves what the first one leaves: each raises `NotConfigured`
on the same block (R198). -/
theorem runAll_cons_of_unconfigured {i : Instr} {rest : List Instr} {s : State} (unconfigured : s.conf.cfgv = false)
    (guarded : ∀ j ∈ i :: rest, worksUnconfigured j = false) :
    runAll (i :: rest) s = .next (raise .notConfigured s) := by
  have refused : exec i s = .next (raise .notConfigured s) :=
    (exec_eq_whenConfigured (guarded i List.mem_cons_self) s).trans (whenConfigured_false unconfigured)
  rw [runAll_cons_of_next refused]
  cases rest with
  | nil => rfl
  | cons j rest =>
    exact runAll_cons_of_unconfigured (s := raise .notConfigured s) unconfigured
      fun k hk => guarded k (List.mem_cons_of_mem i hk)

/-! ### The rounds do not see the response

A command issued alone responds after every micro-operation, `PIPF` and `PIPB` once at their end (R172, R177). -/

/-- What a micro-operation does is the same whatever was answered before it. -/
def IgnoresResponse (micro : Fin 5 → State → State) : Prop :=
  ∀ p s r, micro p (State.respond s r) = (micro p s).respond r

theorem forwardStep_respond : IgnoresResponse forwardStep := by
  intro place s r
  fin_cases place <;> rfl

theorem backwardStep_respond : IgnoresResponse backwardStep := by
  intro place s r
  fin_cases place <;> rfl

/-- The sequencer commutes with a response when each of its steps does. -/
theorem runSequencer_respond {micro : Fin 5 → State → State} (blind : IgnoresResponse micro) (count : Nat)
    (q : Sequencer) (s : State) (r : Response) :
    runSequencer micro count q (s.respond r) = (runSequencer micro count q s).respond r := by
  induction count generalizing q s with
  | zero => rfl
  | succ n ih => rw [runSequencer, blind, ih, ← runSequencer]

theorem pipfBody_respond (s : State) (r : Response) : pipfBody (s.respond r) = (pipfBody s).respond r :=
  runSequencer_respond forwardStep_respond _ _ s r

theorem pipbBody_respond (s : State) (r : Response) : pipbBody (s.respond r) = (pipbBody s).respond r :=
  runSequencer_respond backwardStep_respond _ _ s r

/-! ### The rounds as commands (R171, R172, R174) -/

/-- The commands that `count` steps of the sequencer stand for, `code` naming the command of each place. -/
def sequencerCommands (code : Fin 5 → Instr) : Nat → Sequencer → List Instr
  | 0, _ => []
  | count + 1, q => code q.step :: sequencerCommands code count q.advance

/-- Five steps from place 0 are the commands of the places in order, so `5 * n` steps are `n` such rounds (R170). -/
theorem sequencerCommands_rounds (code : Fin 5 → Instr) (n rnd : Nat) :
    sequencerCommands code (5 * n) { rnd := rnd, step := 0 } = (List.replicate n (List.ofFn code)).flatten := by
  induction n generalizing rnd with
  | zero => rfl
  | succ n ih =>
    rw [List.replicate_succ, List.flatten_cons, ← ih (rnd + 1)]
    simp [Nat.mul_succ, sequencerCommands, Sequencer.advance, List.ofFn_succ]

/-- `code` names the command of each place of the rounds of `micro`: issued on a configured block, it does the
micro-operation and answers `OK` (R172). -/
def Issues (code : Fin 5 → Instr) (micro : Fin 5 → State → State) : Prop :=
  ∀ p s, s.conf.cfgv = true → exec (code p) s = .next (respondOk (micro p s))

theorem forwardRound_issues : Issues forwardRound.get forwardStep := by
  intro place s configured
  fin_cases place <;> exact exec_of_configured rfl configured

theorem backwardRound_issues : Issues backwardRound.get backwardStep := by
  intro place s configured
  fin_cases place <;> exact exec_of_configured rfl configured

section
variable {code : Fin 5 → Instr} {micro : Fin 5 → State → State} {s : State}

/-- The commands of the sequencer's steps, issued one by one, leave the buffer that the steps leave: a command differs
from its step by the response alone, which no later step sees. -/
theorem runAll_sequencerCommands (issues : Issues code micro) (frame : ∀ p s, OnlyDigitsChange s (micro p s))
    (blind : IgnoresResponse micro) (count : Nat) (q : Sequencer) (configured : s.conf.cfgv = true) :
    ∃ u, runAll (sequencerCommands code count q) s = .next u ∧ (runSequencer micro count q s).buf = u.buf := by
  induction count generalizing q s with
  | zero => exact ⟨s, rfl, rfl⟩
  | succ n ih =>
    have still : (micro q.step s).conf.cfgv = true := (frame q.step s).conf ▸ configured
    obtain ⟨u, run, buf⟩ := ih q.advance (s := respondOk (micro q.step s)) still
    refine ⟨u, (runAll_cons_of_next (issues q.step s configured) _).trans run, ?_⟩
    rw [← buf, respondOk, runSequencer_respond blind, respond_buf, runSequencer]

/-- `n` rounds of commands leave the buffer that `5 * n` steps from place 0 leave. -/
theorem runAll_rounds (issues : Issues code micro) (frame : ∀ p s, OnlyDigitsChange s (micro p s))
    (blind : IgnoresResponse micro) (n : Nat) (configured : s.conf.cfgv = true) :
    ∃ u, runAll (List.replicate n (List.ofFn code)).flatten s = .next u ∧
      (runSequencer micro (5 * n) { rnd := 0, step := 0 } s).buf = u.buf :=
  sequencerCommands_rounds code n 0 ▸ runAll_sequencerCommands issues frame blind (5 * n) _ configured

end

/-- Settles O51: the commands of `DLEN` forward rounds are those of the sequencer's `5 * DLEN` steps. -/
theorem pipfIsItsMicroOperations : Obligations.PipfIsItsMicroOperations := by
  intro s
  refine ⟨refusesUnconfigured_of_guarded rfl s, fun configured => ?_⟩
  have frame := pipfBody_frame s
  obtain ⟨u, run, buf⟩ := runAll_rounds forwardRound_issues forwardStep_frame forwardStep_respond s.dlen configured
  exact ⟨respondOk (pipfBody s), u, exec_of_configured rfl configured, respondOk_answersOk frame.busy frame.port,
    frame.conf, rfl, frame.dlen, run, buf⟩

/-- Settles O52: the commands of `DLEN` backward rounds are those of the sequencer's `5 * DLEN` steps. -/
theorem pipbIsItsMicroOperations : Obligations.PipbIsItsMicroOperations := by
  intro s
  refine ⟨refusesUnconfigured_of_guarded rfl s, fun configured => ?_⟩
  have frame := pipbBody_frame s
  obtain ⟨u, run, buf⟩ := runAll_rounds backwardRound_issues backwardStep_frame backwardStep_respond s.dlen configured
  exact ⟨respondOk (pipbBody s), u, exec_of_configured rfl configured, respondOk_answersOk frame.busy frame.port,
    frame.conf, rfl, frame.dlen, run, buf⟩

/-! ### The rounds between a conversion and an answer -/

/-- `PIPF` after a command that answered `OK` leaves what the rounds alone leave: one response replaces the other. -/
theorem guardedBody_pipf_respondOk (s : State) : guardedBody .pipf (respondOk s) = respondOk (pipfBody s) :=
  calc guardedBody .pipf (respondOk s)
      = respondOk (pipfBody (respondOk s)) := rfl
    _ = respondOk (respondOk (pipfBody s)) := congrArg respondOk (pipfBody_respond s _)
    _ = respondOk (pipfBody s) := rfl

/-- `PIPB` after a command that answered `OK` leaves what the rounds alone leave. -/
theorem guardedBody_pipb_respondOk (s : State) : guardedBody .pipb (respondOk s) = respondOk (pipbBody s) :=
  calc guardedBody .pipb (respondOk s)
      = respondOk (pipbBody (respondOk s)) := rfl
    _ = respondOk (respondOk (pipbBody s)) := congrArg respondOk (pipbBody_respond s _)
    _ = respondOk (pipbBody s) := rfl

/-! ### `ENC` (R177) -/

/-- On a configured block the three commands pass the digits on and the last response stands. -/
theorem runAll_enc_of_configured (v : Value) {s : State} (configured : s.conf.cfgv = true) :
    runAll [.i2d v, .pipf, .d2c] s = .next (guardedBody (.enc v) s) := by
  have pipfReady : (guardedBody (.i2d v) s).conf.cfgv = true := by rw [guardedBody_conf, configured]
  have d2cReady : (guardedBody .pipf (guardedBody (.i2d v) s)).conf.cfgv = true := by rw [guardedBody_conf, pipfReady]
  calc runAll [.i2d v, .pipf, .d2c] s
      = .next (guardedBody .d2c (guardedBody .pipf (guardedBody (.i2d v) s))) := by
        rw [runAll_cons_of_configured rfl configured, runAll_cons_of_configured rfl pipfReady,
          runAll_cons_of_configured rfl d2cReady, runAll]
    _ = .next (guardedBody .d2c (respondOk (pipfBody (i2dBody (readVal v) s)))) := by
        rw [← guardedBody_pipf_respondOk]
        rfl
    _ = .next (guardedBody (.enc v) s) := rfl

theorem enc_eq_runAll (v : Value) (s : State) : exec (.enc v) s = runAll [.i2d v, .pipf, .d2c] s := by
  cases configured : s.conf.cfgv with
  | true => rw [exec_of_configured rfl configured, runAll_enc_of_configured v configured]
  | false =>
    rw [exec_eq_whenConfigured rfl, whenConfigured_false configured,
      runAll_cons_of_unconfigured configured (by simp [worksUnconfigured])]

/-- Settles O54: `ENC` is its expansion, and its one response is the text of the buffer the rounds left. -/
theorem encIsItsExpansion : Obligations.EncIsItsExpansion := by
  intro v s
  refine ⟨refusesUnconfigured_of_guarded rfl s, rfl, enc_eq_runAll v s, fun configured => ?_⟩
  have frame := pipfBody_frame (i2dBody (readVal v) s)
  obtain ⟨st, rsp, -, -⟩ := respondText_answersOk (bufferText (pipfBody (i2dBody (readVal v) s)))
    (pipfBody (i2dBody (readVal v) s))
  exact ⟨guardedBody (.enc v) s, _, exec_of_configured rfl configured, ⟨st, rsp, frame.busy, frame.port⟩, frame.conf⟩

/-! ### `DEC` (R179) -/

/-- An error answer is never `OK` (R191). -/
theorem stCode_raise_ne_zero (e : Cause) (s : State) : stCode (raise e s).st ≠ 0 := by
  rw [raise_st, stCode_status]
  exact e.code_ne_zero

section
variable {text : Stream} {s : State}

/-- A configured `DEC` of a text with an offence does what `C2D` does: no round runs (R164, R183). -/
theorem guardedBody_dec_of_error {e : Cause} (offends : digitsOfText s.conf 0 text = .error e) :
    guardedBody (.dec text) s = guardedBody (.c2d text) s := by
  simp only [guardedBody, offends]

/-- On a configured block and a text without an offence the three commands pass the digits on and the last response
stands. -/
theorem runAll_dec_of_ok {ds : List Byte} (configured : s.conf.cfgv = true)
    (loads : digitsOfText s.conf 0 text = .ok ds) :
    runAll [.c2d text, .pipb, .d2i] s = .next (guardedBody (.dec text) s) := by
  have c2d : guardedBody (.c2d text) s = respondOk (s.setBuf ds) := by simp only [guardedBody, loads]
  have dec : guardedBody (.dec text) s = respondValue (d2iValue (pipbBody (s.setBuf ds))) (pipbBody (s.setBuf ds)) := by
    simp only [guardedBody, loads]
  have pipbReady : (respondOk (s.setBuf ds)).conf.cfgv = true := configured
  have d2iReady : (respondOk (pipbBody (s.setBuf ds))).conf.cfgv = true := by
    rw [respondOk_conf, pipbBody_conf, setBuf_conf, configured]
  calc runAll [.c2d text, .pipb, .d2i] s
      = .next (guardedBody .d2i (respondOk (pipbBody (s.setBuf ds)))) := by
        rw [runAll_cons_of_configured rfl configured, c2d, runAll_cons_of_configured rfl pipbReady,
          guardedBody_pipb_respondOk, runAll_cons_of_configured rfl d2iReady, runAll]
    _ = .next (guardedBody (.dec text) s) := by rw [dec]; rfl

end

/-- Settles O56: the loader decides. A text it refuses, and a block without a configuration, ends `DEC` as it ends
`C2D`. -/
theorem decIsItsExpansion : Obligations.DecIsItsExpansion := by
  intro text s
  refine ⟨refusesUnconfigured_of_guarded rfl s, rfl, ?_⟩
  cases configured : s.conf.cfgv with
  | false =>
    have refused {i : Instr} (guarded : worksUnconfigured i = false) : exec i s = .next (raise .notConfigured s) :=
      (exec_eq_whenConfigured guarded s).trans (whenConfigured_false configured)
    exact ⟨raise .notConfigured s, refused rfl, fun _ => refused rfl, fun ok => absurd ok (stCode_raise_ne_zero _ s)⟩
  | true =>
    refine ⟨guardedBody (.c2d text) s, exec_of_configured rfl configured, ?_⟩
    rw [exec_of_configured rfl configured]
    cases loader : digitsOfText s.conf 0 text with
    | ok ds =>
      refine ⟨fun failed => absurd ?_ failed, fun _ => (runAll_dec_of_ok configured loader).symm⟩
      simp only [guardedBody, loader, respondOk_st, stCode_status, okResponse]
    | error e =>
      refine ⟨fun _ => by rw [guardedBody_dec_of_error loader], fun ok => absurd ok ?_⟩
      simp only [guardedBody, loader]
      exact stCode_raise_ne_zero e (s.setBuf [])

end Sys2Proof.Machine
end

section
/-! The family `60_exceptions.md`: `NotConfigured` (R198). -/

namespace Sys2Proof.Machine

/-- Settles O19: each of the fourteen guarded commands is the test of `CFGV` before its body
(`exec_eq_whenConfigured`), and a failed test raises `NotConfigured`, which keeps the buffer. -/
theorem unconfiguredCommandsAreRefused : Obligations.UnconfiguredCommandsAreRefused :=
  fun _ s guarded => refusesUnconfigured_of_guarded guarded s

end Sys2Proof.Machine
end

section
/-! The family `43_digit_units.md`, the reversals: the rotations (R144), the substitutions (R148) and the cascades (R151)
undo each other, and each keeps the digits below the base (R23). -/

namespace Sys2Proof.Machine

/-- Every digit is below the base (R23). -/
def DigitsBelow (base : Nat) (ds : List Byte) : Prop := ∀ d ∈ ds, d.toNat < base

theorem digitsBelow_cons {base : Nat} {d : Byte} {ds : List Byte} :
    DigitsBelow base (d :: ds) ↔ d.toNat < base ∧ DigitsBelow base ds := List.forall_mem_cons

theorem State.Ready.digitsBelow {s : State} (ready : s.Ready) : DigitsBelow s.base s.buf := ready.digits_below

/-! ### The rotations (R144) -/

theorem digitsBelow_rotateLeft {base : Nat} {ds : List Byte} (below : DigitsBelow base ds) :
    DigitsBelow base (rotateLeft ds) := fun d hd => below d (mem_rotateLeft.mp hd)

theorem digitsBelow_rotateRight {base : Nat} {ds : List Byte} (below : DigitsBelow base ds) :
    DigitsBelow base (rotateRight ds) := fun d hd => below d (mem_rotateRight.mp hd)

theorem rotateRight_rotateLeft : Function.LeftInverse rotateRight rotateLeft := by
  intro ds
  cases ds with
  | nil => rfl
  | cons d rest => exact rotateRight_append rest d

theorem rotateLeft_rotateRight : Function.LeftInverse rotateLeft rotateRight := by
  intro ds
  rcases List.eq_nil_or_concat ds with rfl | ⟨init, last, rfl⟩
  · rfl
  · rw [List.concat_eq_append, rotateRight_append, rotateLeft]

theorem rotateLeft_iterate (k : Nat) (ds : List Byte) : rotateLeft^[k] ds = ds.rotate k := by
  induction k with
  | zero => simp
  | succ k ih => rw [Function.iterate_succ_apply', ih, rotateLeft_eq_rotate, List.rotate_rotate]

/-- As many places as there are digits bring every digit back. -/
theorem rotateLeft_iterate_length (ds : List Byte) : rotateLeft^[ds.length] ds = ds := by
  rw [rotateLeft_iterate, List.rotate_length]

/-- The same to the right, where `n` places undo the `n` places to the left that change nothing. -/
theorem rotateRight_iterate_length (ds : List Byte) : rotateRight^[ds.length] ds = ds := by
  calc rotateRight^[ds.length] ds
      = rotateRight^[ds.length] (rotateLeft^[ds.length] ds) := by rw [rotateLeft_iterate_length]
    _ = ds := rotateRight_rotateLeft.iterate ds.length ds

/-! ### The substitutions (R148) -/

theorem substitute_substitute_of_inverse {base : Nat} {f g : Byte → Byte} {ds : List Byte}
    (inverse : ∀ d : Byte, d.toNat < base → g (f d) = d) (below : DigitsBelow base ds) :
    substitute g (substitute f ds) = ds := by
  rw [substitute, substitute, List.map_map]
  exact (List.map_congr_left fun d hd => inverse d (below d hd)).trans ds.map_id

theorem digitsBelow_substitute {base : Nat} {f : Byte → Byte} {ds : List Byte}
    (keeps : ∀ d : Byte, d.toNat < base → (f d).toNat < base) (below : DigitsBelow base ds) :
    DigitsBelow base (substitute f ds) := by
  intro x hx
  obtain ⟨d, hd, rfl⟩ := List.mem_map.mp hx
  exact keeps d (below d hd)

section
variable {k : Configuration} {d : Byte}

/-- `PERM` holds digits only (R32). -/
theorem Configuration.Legal.readPerm_lt (legal : k.Legal) (hd : d.toNat < k.asize.toNat) :
    (readPerm k d).toNat < k.asize.toNat :=
  (legal.perm_onto _).mp (readTable_mem (legal.perm_length ▸ hd))

/-- `INV` holds digits only: every digit is some `PERM[i]`, and `INV` there is `i` (R32). -/
theorem Configuration.Legal.readInv_lt (legal : k.Legal) (hd : d.toNat < k.asize.toNat) :
    (readInv k d).toNat < k.asize.toNat := by
  obtain ⟨n, hn⟩ := List.mem_iff_getElem?.mp ((legal.perm_onto d).mpr hd)
  have below : n < k.asize.toNat := legal.perm_length ▸ (List.getElem?_eq_some_iff.mp hn).1
  have most := legal.size_most
  have index : (BitVec.ofNat 8 n).toNat = n := by
    rw [BitVec.toNat_ofNat]
    omega
  have entry : readPerm k (BitVec.ofNat 8 n) = d := readTable_eq (index.symm ▸ hn)
  rw [← entry, legal.inv_perm _ (index.symm ▸ below), index]
  exact below

end

/-! ### The cascades (R151) -/

section
variable {base : Nat}

theorem digitsBelow_cascadeForward (low : 0 < base) (high : base ≤ 256) (last : Byte) (ds : List Byte) :
    DigitsBelow base (cascadeForward base last ds) := by
  induction ds generalizing last with
  | nil => simp [DigitsBelow, cascadeForward]
  | cons d rest ih =>
    rw [cascadeForward, digitsBelow_cons, toNat_ofNat_mod low high]
    exact ⟨Nat.mod_lt _ low, ih _⟩

theorem digitsBelow_cascadeBackward (low : 0 < base) (high : base ≤ 256) (last : Byte) (ds : List Byte) :
    DigitsBelow base (cascadeBackward base last ds) := by
  induction ds generalizing last with
  | nil => simp [DigitsBelow, cascadeBackward]
  | cons t rest ih =>
    rw [cascadeBackward, digitsBelow_cons]
    have residue := Int.emod_lt_of_pos ((t.toNat : Int) - last.toNat + base) (Int.natCast_pos.mpr low)
    rw [← toNat_ofInt_emod low high] at residue
    exact ⟨by omega, ih t⟩

/-- Taking the accumulator off a sum of two digits, modulo the base, gives the digit back. -/
theorem sub_of_add_mod {d last : Byte} (high : base ≤ 256) (hd : d.toNat < base) :
    BitVec.ofInt 8 ((((BitVec.ofNat 8 ((d.toNat + last.toNat) % base)).toNat : Int) - last.toNat + base) % (base : Int)) =
      d := by
  apply BitVec.eq_of_toNat_eq
  have low : 0 < base := by omega
  have residue : ((((d.toNat + last.toNat) % base : Nat) : Int) - last.toNat + base) % (base : Int) = d.toNat := by
    rw [Int.add_emod_right, Int.natCast_emod, Int.emod_sub_emod, Int.natCast_add, Int.add_sub_cancel]
    exact Int.emod_eq_of_lt (Int.natCast_nonneg _) (Int.ofNat_lt.mpr hd)
  have := toNat_ofInt_emod low high ((((d.toNat + last.toNat) % base : Nat) : Int) - last.toNat + base)
  rw [toNat_ofNat_mod low high]
  omega

/-- Adding the accumulator to a difference of two digits, modulo the base, gives the digit back. -/
theorem add_of_sub_mod {t last : Byte} (high : base ≤ 256) (ht : t.toNat < base) :
    BitVec.ofNat 8 (((BitVec.ofInt 8 (((t.toNat : Int) - last.toNat + base) % (base : Int))).toNat + last.toNat) % base) =
      t := by
  apply BitVec.eq_of_toNat_eq
  have low : 0 < base := by omega
  rw [toNat_ofNat_mod low high]
  apply Int.ofNat.inj
  rw [Int.ofNat_eq_natCast, Int.ofNat_eq_natCast, Int.natCast_emod, Int.natCast_add, toNat_ofInt_emod low high,
    Int.add_emod_right, Int.emod_add_emod, Int.sub_add_cancel]
  exact Int.emod_eq_of_lt (Int.natCast_nonneg _) (Int.ofNat_lt.mpr ht)

/-- The backward cascade undoes the forward one from the same accumulator. -/
theorem cascadeBackward_cascadeForward (high : base ≤ 256) (last : Byte) {ds : List Byte} (below : DigitsBelow base ds) :
    cascadeBackward base last (cascadeForward base last ds) = ds := by
  induction ds generalizing last with
  | nil => rfl
  | cons d rest ih =>
    obtain ⟨hd, hrest⟩ := digitsBelow_cons.mp below
    rw [cascadeForward, cascadeBackward, sub_of_add_mod high hd, ih _ hrest]

/-- The forward cascade undoes the backward one from the same accumulator. -/
theorem cascadeForward_cascadeBackward (high : base ≤ 256) (last : Byte) {ds : List Byte} (below : DigitsBelow base ds) :
    cascadeForward base last (cascadeBackward base last ds) = ds := by
  induction ds generalizing last with
  | nil => rfl
  | cons t rest ih =>
    obtain ⟨ht, hrest⟩ := digitsBelow_cons.mp below
    rw [cascadeBackward, cascadeForward, add_of_sub_mod high ht, ih t hrest]

end

/-! ### The commands in sequence -/

/-- A guarded command that rewrites the digits by `f`, a function of the configuration and the digits, and answers `OK`. -/
def Rewrites (i : Instr) (f : Configuration → List Byte → List Byte) : Prop :=
  worksUnconfigured i = false ∧ ∀ s, guardedBody i s = respondOk (s.setBuf (f s.conf s.buf))

/-- On a configured block such a command leaves the digits rewritten, the configuration, and the rest of the commands to
run. -/
theorem runAll_cons_of_rewrites {i : Instr} {f : Configuration → List Byte → List Byte} (rewrites : Rewrites i f)
    {s : State} (configured : s.conf.cfgv = true) (rest : List Instr) :
    runAll (i :: rest) s = runAll rest (respondOk (s.setBuf (f s.conf s.buf))) := by
  rw [runAll_cons_of_configured rewrites.1 configured, rewrites.2]

/-- Two such commands, one after the other, leave the digits rewritten twice. -/
theorem runAll_pair {i j : Instr} {f g : Configuration → List Byte → List Byte} (first : Rewrites i f)
    (second : Rewrites j g) {s : State} (configured : s.conf.cfgv = true)
    (undone : g s.conf (f s.conf s.buf) = s.buf) :
    ∃ t, runAll [i, j] s = .next t ∧ t.buf = s.buf ∧ t.conf = s.conf :=
  have still : (respondOk (s.setBuf (f s.conf s.buf))).conf.cfgv = true := configured
  ⟨_, (runAll_cons_of_rewrites first configured _).trans (runAll_cons_of_rewrites second still []), undone, rfl⟩

/-- The same command issued `k` times leaves the digits rewritten `k` times. -/
theorem runAll_replicate {i : Instr} {f : List Byte → List Byte} (rewrites : Rewrites i fun _ => f) (k : Nat)
    {s : State} (configured : s.conf.cfgv = true) :
    ∃ t, runAll (List.replicate k i) s = .next t ∧ t.buf = f^[k] s.buf := by
  induction k generalizing s with
  | zero => exact ⟨s, rfl, rfl⟩
  | succ k ih =>
    rw [List.replicate_succ, runAll_cons_of_rewrites rewrites configured]
    exact ih configured

theorem rewrites_rotl : Rewrites .rotl fun _ => rotateLeft := ⟨rfl, fun _ => rfl⟩
theorem rewrites_rotr : Rewrites .rotr fun _ => rotateRight := ⟨rfl, fun _ => rfl⟩
theorem rewrites_permf : Rewrites .permf fun k => substitute (readPerm k) := ⟨rfl, fun _ => rfl⟩
theorem rewrites_permb : Rewrites .permb fun k => substitute (readInv k) := ⟨rfl, fun _ => rfl⟩
theorem rewrites_casf : Rewrites .casf fun k => cascadeForward k.asize.toNat 0 := ⟨rfl, fun _ => rfl⟩
theorem rewrites_casb : Rewrites .casb fun k => cascadeBackward k.asize.toNat 0 := ⟨rfl, fun _ => rfl⟩

/-- The part of it that speaks of the digits alone. -/
theorem runAll_pair_buf {i j : Instr} {f g : Configuration → List Byte → List Byte} (first : Rewrites i f)
    (second : Rewrites j g) {s : State} (configured : s.conf.cfgv = true)
    (undone : g s.conf (f s.conf s.buf) = s.buf) : ∃ t, runAll [i, j] s = .next t ∧ t.buf = s.buf := by
  obtain ⟨t, run, buf, -⟩ := runAll_pair first second configured undone
  exact ⟨t, run, buf⟩

/-- Settles O39: the two rotations are inverse functions of the buffer, and `n` of one kind are the identity. -/
theorem rotationsUndoEachOther : Obligations.RotationsUndoEachOther := by
  intro s configured
  refine ⟨runAll_pair_buf rewrites_rotl rewrites_rotr configured (rotateRight_rotateLeft s.buf),
    runAll_pair_buf rewrites_rotr rewrites_rotl configured (rotateLeft_rotateRight s.buf), ?_, ?_⟩
  · obtain ⟨t, run, buf⟩ := runAll_replicate rewrites_rotl s.dlen configured
    exact ⟨t, run, buf.trans (rotateLeft_iterate_length s.buf)⟩
  · obtain ⟨t, run, buf⟩ := runAll_replicate rewrites_rotr s.dlen configured
    exact ⟨t, run, buf.trans (rotateRight_iterate_length s.buf)⟩

/-- Settles O42: in a legal configuration `PERM` and `INV` are inverse on the digits. -/
theorem substitutionsUndoEachOther : Obligations.SubstitutionsUndoEachOther := by
  intro s ready
  exact ⟨runAll_pair_buf rewrites_permf rewrites_permb ready.configured
      (substitute_substitute_of_inverse ready.legal.inv_perm ready.digitsBelow),
    runAll_pair_buf rewrites_permb rewrites_permf ready.configured
      (substitute_substitute_of_inverse ready.legal.perm_inv ready.digitsBelow)⟩

/-- Settles O45: both cascades start from `LAST = 0`. -/
theorem cascadesUndoEachOther : Obligations.CascadesUndoEachOther := by
  intro s ready
  exact ⟨runAll_pair_buf rewrites_casf rewrites_casb ready.configured
      (cascadeBackward_cascadeForward ready.legal.size_most 0 ready.digitsBelow),
    runAll_pair_buf rewrites_casb rewrites_casf ready.configured
      (cascadeForward_cascadeBackward ready.legal.size_most 0 ready.digitsBelow)⟩

end Sys2Proof.Machine
end

section
/-! The family `45_pipeline.md`, the rounds as a function of the digits: `PIPF` and `PIPB` undo each other (R175), and the
counters of the sequencer (R24). -/

namespace Sys2Proof.Machine

/-! ### The rounds on the digits (R170) -/

/-- The digits after one forward round: `ROTL`, `PERMF`, `ROTL`, `CASF`, `ROTL`. -/
def forwardRoundDigits (k : Configuration) (ds : List Byte) : List Byte :=
  rotateLeft (cascadeForward k.asize.toNat 0 (rotateLeft (substitute (readPerm k) (rotateLeft ds))))

/-- The digits after one backward round: `ROTR`, `CASB`, `ROTR`, `PERMB`, `ROTR`. -/
def backwardRoundDigits (k : Configuration) (ds : List Byte) : List Byte :=
  rotateRight (substitute (readInv k) (rotateRight (cascadeBackward k.asize.toNat 0 (rotateRight ds))))

theorem runSequencer_forward_rounds (n rnd : Nat) (s : State) :
    runSequencer forwardStep (5 * n) { rnd := rnd, step := 0 } s =
      s.setBuf ((forwardRoundDigits s.conf)^[n] s.buf) := by
  induction n generalizing rnd s with
  | zero => rfl
  | succ n ih =>
    rw [Nat.mul_succ, runSequencer_forward_round, ih, Function.iterate_succ_apply]
    rfl

theorem runSequencer_backward_rounds (n rnd : Nat) (s : State) :
    runSequencer backwardStep (5 * n) { rnd := rnd, step := 0 } s =
      s.setBuf ((backwardRoundDigits s.conf)^[n] s.buf) := by
  induction n generalizing rnd s with
  | zero => rfl
  | succ n ih =>
    rw [Nat.mul_succ, runSequencer_backward_round, ih, Function.iterate_succ_apply]
    rfl

/-- `PIPF` on the digits: as many forward rounds as there are digits (R171). -/
def forwardRounds (k : Configuration) (ds : List Byte) : List Byte := (forwardRoundDigits k)^[ds.length] ds

/-- `PIPB` on the digits: as many backward rounds as there are digits (R174). -/
def backwardRounds (k : Configuration) (ds : List Byte) : List Byte := (backwardRoundDigits k)^[ds.length] ds

/-- The rounds read the configuration and the digits and write the digits, and nothing else. -/
theorem pipfBody_eq (s : State) : pipfBody s = s.setBuf (forwardRounds s.conf s.buf) :=
  runSequencer_forward_rounds s.dlen 0 s

theorem pipbBody_eq (s : State) : pipbBody s = s.setBuf (backwardRounds s.conf s.buf) :=
  runSequencer_backward_rounds s.dlen 0 s

theorem rewrites_pipf : Rewrites .pipf forwardRounds := ⟨rfl, fun s => congrArg respondOk (pipfBody_eq s)⟩

theorem rewrites_pipb : Rewrites .pipb backwardRounds := ⟨rfl, fun s => congrArg respondOk (pipbBody_eq s)⟩

/-! ### The rounds undo each other (R175) -/

/-- The arrays of `n` digits of a base. -/
def digitArrays (base n : Nat) : Set (List Byte) := { ds | ds.length = n ∧ DigitsBelow base ds }

/-- What is undone by one round is undone by any number of rounds. -/
theorem leftInvOn_iterate {α : Type} {f g : α → α} {A : Set α} (keeps : Set.MapsTo f A A) (undoes : Set.LeftInvOn g f A)
    (n : Nat) : Set.LeftInvOn g^[n] f^[n] A := by
  intro a ha
  induction n with
  | zero => rfl
  | succ n ih => rw [Function.iterate_succ_apply' f, Function.iterate_succ_apply g, undoes (keeps.iterate n ha), ih]

section
variable {k : Configuration} {n : Nat}

theorem forwardRoundDigits_mapsTo (legal : k.Legal) :
    Set.MapsTo (forwardRoundDigits k) (digitArrays k.asize.toNat n) (digitArrays k.asize.toNat n) := by
  rintro ds ⟨length, -⟩
  have low : 0 < k.asize.toNat := Nat.zero_lt_of_lt legal.size_least
  exact ⟨by simp [forwardRoundDigits, length],
    digitsBelow_rotateLeft (digitsBelow_cascadeForward low legal.size_most 0 _)⟩

theorem backwardRoundDigits_mapsTo (legal : k.Legal) :
    Set.MapsTo (backwardRoundDigits k) (digitArrays k.asize.toNat n) (digitArrays k.asize.toNat n) := by
  rintro ds ⟨length, -⟩
  have low : 0 < k.asize.toNat := Nat.zero_lt_of_lt legal.size_least
  have cascaded := digitsBelow_cascadeBackward low legal.size_most 0 (rotateRight ds)
  exact ⟨by simp [backwardRoundDigits, length],
    digitsBelow_rotateRight (digitsBelow_substitute (fun _ => legal.readInv_lt) (digitsBelow_rotateRight cascaded))⟩

/-- A backward round undoes the operations of a forward round in the opposite order. -/
theorem backwardRoundDigits_forwardRoundDigits (legal : k.Legal) :
    Set.LeftInvOn (backwardRoundDigits k) (forwardRoundDigits k) (digitArrays k.asize.toNat n) := by
  rintro ds ⟨-, below⟩
  have rotated := digitsBelow_rotateLeft below
  have substituted := digitsBelow_rotateLeft (digitsBelow_substitute (fun _ => legal.readPerm_lt) rotated)
  rw [forwardRoundDigits, backwardRoundDigits, rotateRight_rotateLeft,
    cascadeBackward_cascadeForward legal.size_most 0 substituted, rotateRight_rotateLeft,
    substitute_substitute_of_inverse legal.inv_perm rotated, rotateRight_rotateLeft]

/-- A forward round undoes the operations of a backward round in the opposite order. -/
theorem forwardRoundDigits_backwardRoundDigits (legal : k.Legal) :
    Set.LeftInvOn (forwardRoundDigits k) (backwardRoundDigits k) (digitArrays k.asize.toNat n) := by
  rintro ds ⟨-, below⟩
  have low : 0 < k.asize.toNat := Nat.zero_lt_of_lt legal.size_least
  have cascaded := digitsBelow_rotateRight (digitsBelow_cascadeBackward low legal.size_most 0 (rotateRight ds))
  rw [forwardRoundDigits, backwardRoundDigits, rotateLeft_rotateRight,
    substitute_substitute_of_inverse legal.perm_inv cascaded, rotateLeft_rotateRight,
    cascadeForward_cascadeBackward legal.size_most 0 (digitsBelow_rotateRight below), rotateLeft_rotateRight]

variable {ds : List Byte}

theorem forwardRounds_mem (legal : k.Legal) (h : ds ∈ digitArrays k.asize.toNat n) :
    forwardRounds k ds ∈ digitArrays k.asize.toNat n := (forwardRoundDigits_mapsTo legal).iterate _ h

theorem backwardRounds_mem (legal : k.Legal) (h : ds ∈ digitArrays k.asize.toNat n) :
    backwardRounds k ds ∈ digitArrays k.asize.toNat n := (backwardRoundDigits_mapsTo legal).iterate _ h

/-- The rounds keep the length, so one pipeline runs as many rounds as the other did. -/
theorem backwardRounds_forwardRounds (legal : k.Legal) (below : DigitsBelow k.asize.toNat ds) :
    backwardRounds k (forwardRounds k ds) = ds := by
  have array : ds ∈ digitArrays k.asize.toNat ds.length := ⟨rfl, below⟩
  rw [backwardRounds, (forwardRounds_mem legal array).1]
  exact leftInvOn_iterate (forwardRoundDigits_mapsTo legal) (backwardRoundDigits_forwardRoundDigits legal) _ array

theorem forwardRounds_backwardRounds (legal : k.Legal) (below : DigitsBelow k.asize.toNat ds) :
    forwardRounds k (backwardRounds k ds) = ds := by
  have array : ds ∈ digitArrays k.asize.toNat ds.length := ⟨rfl, below⟩
  rw [forwardRounds, (backwardRounds_mem legal array).1]
  exact leftInvOn_iterate (backwardRoundDigits_mapsTo legal) (forwardRoundDigits_backwardRoundDigits legal) _ array

end

/-- Settles O53: the two pipelines are inverse functions of the digits of a legal configuration. -/
theorem pipelinesUndoEachOther : Obligations.PipelinesUndoEachOther := by
  intro s ready
  exact ⟨runAll_pair rewrites_pipf rewrites_pipb ready.configured
      (backwardRounds_forwardRounds ready.legal ready.digitsBelow),
    runAll_pair rewrites_pipb rewrites_pipf ready.configured
      (forwardRounds_backwardRounds ready.legal ready.digitsBelow)⟩

/-! ### The counters of the sequencer (R24) -/

/-- Settles O50: each step moves the place on by one, and the fifth also the round. -/
theorem sequencerCountsRoundsAndPlaces : Obligations.SequencerCountsRoundsAndPlaces := by
  intro k
  induction k with
  | zero => exact ⟨rfl, rfl⟩
  | succ k ih =>
    obtain ⟨round, place⟩ := ih
    rw [Function.iterate_succ_apply']
    have last : (Sequencer.advance^[k] { rnd := 0, step := 0 }).step = 4 ↔ k % 5 = 4 := by
      rw [Fin.ext_iff, place]
      rfl
    simp only [Sequencer.advance, last, round, Fin.val_add, place]
    refine ⟨?_, Nat.mod_add_mod k 5 1⟩
    split <;> omega

/-! ### What keeps a block ready (R22, R23) -/

/-- A configured block stays ready when its new digits are below the base and fit. -/
theorem State.Ready.setBuf {s : State} (ready : s.Ready) {ds : List Byte} (below : DigitsBelow s.base ds)
    (fits : ds.length ≤ Config.nmax) : (s.setBuf ds).Ready :=
  ⟨ready.configured, ready.legal, below, fits⟩

theorem State.Ready.respond {s : State} (ready : s.Ready) (r : Response) : (s.respond r).Ready :=
  ⟨ready.configured, ready.legal, ready.digits_below, ready.dlen_most⟩

/-- A command that rewrites the digits keeps the block ready when it gives as many digits of the same base. -/
theorem State.Ready.of_rewrites {s : State} (ready : s.Ready) {i : Instr} {f : Configuration → List Byte → List Byte}
    (rewrites : Rewrites i f) (below : DigitsBelow s.base (f s.conf s.buf)) (length : (f s.conf s.buf).length = s.dlen) :
    (guardedBody i s).Ready := by
  rw [rewrites.2]
  exact (ready.setBuf below (length.trans_le ready.dlen_most)).respond _

end Sys2Proof.Machine
end

section
/-! The family `42_digit_conversion.md`, the derived rules: the digits of `I2D` as repeated division (R132), their number
(R133), the wrapping accumulator (R135), and the two conversions as inverses (R136). -/

namespace Sys2Proof.Machine

/-! ### Digits and values -/

/-- The last digit is the remainder, the digits before it are those of the quotient (R132). -/
theorem digitsOf_succ (base v n : Nat) :
    digitsOf base v (n + 1) = digitsOf base (v / base) n ++ [BitVec.ofNat 8 (v % base)] := by
  have front : ∀ i ∈ List.range n, BitVec.ofNat 8 (v / base ^ (n - i) % base) =
      BitVec.ofNat 8 (v / base / base ^ (n - 1 - i) % base) := by
    intro i hi
    rw [List.mem_range] at hi
    have exponent : n - i = n - 1 - i + 1 := by omega
    rw [exponent, Nat.pow_succ', Nat.div_div_eq_div_mul]
  simp only [digitsOf, List.range_succ, List.map_append, Nat.add_sub_cancel, List.map_congr_left front]
  simp

theorem iterate_div (base v j : Nat) : (fun r => r / base)^[j] v = v / base ^ j := by
  induction j with
  | zero => simp
  | succ j ih => rw [Function.iterate_succ_apply', ih, Nat.div_div_eq_div_mul, Nat.pow_succ]

section
variable {base : Nat}

/-- `n` digits hold the value modulo `base^n`. -/
theorem digitsValue_digitsOf (low : 0 < base) (high : base ≤ 256) (v n : Nat) :
    digitsValue base (digitsOf base v n) = v % base ^ n := by
  induction n generalizing v with
  | zero => simp [digitsOf, digitsValue, Nat.mod_one]
  | succ n ih =>
    rw [digitsOf_succ, digitsValue_append_singleton, ih, toNat_ofNat_mod low high, Nat.pow_succ', Nat.mod_mul]
    ring

/-- Digits below the base are the digits of their value: a value has one array of each length at most (R132). -/
theorem digitsOf_digitsValue {ds : List Byte} (below : DigitsBelow base ds) :
    digitsOf base (digitsValue base ds) ds.length = ds := by
  induction ds using List.reverseRecOn with
  | nil => rfl
  | append_singleton ds d ih =>
    have hd : d.toNat < base := below d (by simp)
    have quotient : (digitsValue base ds * base + d.toNat) / base = digitsValue base ds := by
      rw [Nat.mul_comm, Nat.mul_add_div (Nat.zero_lt_of_lt hd), Nat.div_eq_of_lt hd, Nat.add_zero]
    have remainder : (digitsValue base ds * base + d.toNat) % base = d.toNat := by
      rw [Nat.mul_comm, Nat.mul_add_mod, Nat.mod_eq_of_lt hd]
    rw [digitsValue_append_singleton, List.length_append, List.length_singleton, digitsOf_succ, quotient, remainder,
      ih fun x hx => below x (List.mem_append_left _ hx), BitVec.ofNat_toNat, BitVec.setWidth_eq]

end

/-! ### `I2D` on a ready block (R132, R133) -/

/-- The number of digits `I2D` writes (R131). -/
def i2dCount (v : Nat) (s : State) : Nat := max s.conf.minlen (need v s.base)

theorem i2dBody_buf (v : Nat) (s : State) : (i2dBody v s).buf = digitsOf s.base v (i2dCount v s) := rfl

theorem i2dBody_dlen (v : Nat) (s : State) : (i2dBody v s).dlen = i2dCount v s := digitsOf_length _ _ _

theorem exec_i2d {s : State} (ready : s.Ready) (v : Value) :
    exec (.i2d v) s = .next (respondOk (i2dBody v.toNat s)) := exec_of_configured rfl ready.configured

theorem exec_d2i {s : State} (configured : s.conf.cfgv = true) :
    exec .d2i s = .next (respondValue (d2iValue s) s) := exec_of_configured rfl configured

section
variable {s : State} (ready : s.Ready) (v : Value)
include ready

theorem State.Ready.base_pos : 0 < s.base := Nat.zero_lt_of_lt ready.legal.size_least

/-- The digits suffice for the value. -/
theorem State.Ready.lt_pow_i2dCount : v.toNat < s.base ^ i2dCount v.toNat s :=
  (lt_pow_need v.isLt ready.legal.size_least).trans_le (Nat.pow_le_pow_right ready.base_pos (Nat.le_max_right _ _))

/-- 64 digits suffice in every base, and `NMAX` is 64 or more (R8, R133). -/
theorem State.Ready.i2dCount_le : i2dCount v.toNat s ≤ Config.nmax := by
  have need : need v.toNat s.base ≤ 64 := need_le (lt_pow_64 v.isLt ready.legal.size_least)
  exact max_le ready.legal.minlen_most (need.trans (Nat.le_add_left 64 _))

theorem State.Ready.i2dBody : (i2dBody v.toNat s).Ready :=
  ready.setBuf (digitsOf_lt ready.base_pos) ((i2dBody_dlen _ _).trans_le (ready.i2dCount_le v))

/-- The digits written read as the value (R134). -/
theorem State.Ready.digitsValue_i2dBody : digitsValue s.base (Machine.i2dBody v.toNat s).buf = v.toNat := by
  rw [i2dBody_buf, digitsValue_digitsOf ready.base_pos ready.legal.size_most, Nat.mod_eq_of_lt (ready.lt_pow_i2dCount v)]

end

/-- Settles O32: the digit `j` places from the right is the remainder after `j` divisions, and digits with the same
weighted sum are the same. -/
theorem i2dIsRepeatedDivision : Obligations.I2dIsRepeatedDivision := by
  intro v s ready
  have dlen : (respondOk (i2dBody v.toNat s)).dlen = i2dCount v.toNat s := i2dBody_dlen _ _
  refine ⟨_, exec_i2d ready v, fun j hj => ?_, ?_, ?_, fun ds length below sum => ?_⟩
  · rw [dlen] at hj ⊢
    have place : i2dCount v.toNat s - 1 - (i2dCount v.toNat s - 1 - j) = j := by omega
    rw [respondOk_buf, i2dBody_buf, digitsOf_getElem? (by omega), place, iterate_div]
  · rw [iterate_div, dlen, Nat.div_eq_of_lt (ready.lt_pow_i2dCount v)]
  · rw [← digitsValue_eq_weightedSum]
    exact ready.digitsValue_i2dBody v
  · rw [← digitsValue_eq_weightedSum] at sum
    rw [← digitsOf_digitsValue below, sum, length, dlen]
    rfl

/-- Settles O33: the digit count lies between `MINLEN` and `NMAX`. -/
theorem i2dFitsTheBuffer : Obligations.I2dFitsTheBuffer := by
  intro v s ready
  have digits : (i2dBody v.toNat s).Ready := ready.i2dBody v
  have dlen := i2dBody_dlen v.toNat s
  exact ⟨_, exec_i2d ready v, stCode_status _, (Nat.le_max_left _ _).trans_eq dlen.symm, digits.dlen_most,
    digits.respond _⟩

/-! ### The wrapping accumulator (R135) -/

/-- One step on an accumulator that is already wrapped: the digits before count modulo `2^64`, and once the exact value
is `2^64` or more it stays so. -/
theorem stickyStep_wrapped {base : Nat} (low : 0 < base) (acc : Nat) (d : Byte) :
    stickyStep base (BitVec.ofNat 64 acc, overflows acc) d =
      (BitVec.ofNat 64 (acc * base + d.toNat), overflows (acc * base + d.toNat)) := by
  have value : BitVec.ofNat 64 (acc % 2 ^ 64 * base + d.toNat) = BitVec.ofNat 64 (acc * base + d.toNat) := by
    apply BitVec.eq_of_toNat_eq
    simp [Nat.add_mod, Nat.mul_mod]
  have sticky : (overflows acc || overflows (acc % 2 ^ 64 * base + d.toNat)) = overflows (acc * base + d.toNat) := by
    by_cases fits : acc < 2 ^ 64
    · have before : overflows acc = false := decide_eq_false (not_le.mpr fits)
      rw [before, Bool.false_or, Nat.mod_eq_of_lt fits]
    · have stays : 2 ^ 64 ≤ acc * base + d.toNat :=
        (not_lt.mp fits).trans ((Nat.le_mul_of_pos_right acc low).trans (Nat.le_add_right _ _))
      have before : overflows acc = true := decide_eq_true (not_lt.mp fits)
      rw [before, Bool.true_or, overflows, decide_eq_true stays]
  rw [stickyStep, BitVec.toNat_ofNat, value, sticky]

/-- The accumulator holds the exact value modulo `2^64`, and its sticky bit says whether that was `2^64` or more. -/
theorem stickyAccumulate_eq {base : Nat} (low : 0 < base) (ds : List Byte) :
    stickyAccumulate base ds = (BitVec.ofNat 64 (digitsValue base ds), overflows (digitsValue base ds)) := by
  induction ds using List.reverseRecOn with
  | nil => rfl
  | append_singleton ds d ih =>
    rw [digitsValue_append_singleton, ← stickyStep_wrapped low, ← ih]
    simp [stickyAccumulate]

/-- Settles O35: `D2I` answers the exact value of the buffer, and so does the accumulator. -/
theorem stickyAccumulatorAgrees : Obligations.StickyAccumulatorAgrees := by
  intro s configured least
  rw [stickyAccumulate_eq (Nat.zero_lt_of_lt least)]
  exact ⟨_, exec_d2i configured, respondValue_answersOk (d2iValue s) s⟩

/-! ### The conversions as inverses (R136) -/

/-- An exact value below `2^64` is answered as it is, without overflow. -/
theorem respondValue_answersOk_toNat (v : Value) {s t : State} (busy : t.busy = s.busy) (port : t.port = s.port) :
    AnswersOk s (respondValue v.toNat t) v false [] := by
  obtain ⟨st, rsp, -, -⟩ := respondValue_answersOk v.toNat t
  have fits : decide (2 ^ 64 ≤ v.toNat) = false := decide_eq_false (not_le.mpr v.isLt)
  rw [fits, BitVec.ofNat_toNat, BitVec.setWidth_eq] at rsp
  rw [fits] at st
  exact ⟨st, rsp, busy, port⟩

/-- An answer without overflow is the exact value (R134). -/
theorem eq_toNat_of_respondValue {acc : Nat} {v : Value} {s t : State} (ok : AnswersOk s (respondValue acc t) v false []) :
    acc = v.toNat := by
  obtain ⟨-, rsp, -, -⟩ := ok
  simp only [respondValue_rsp, okResponse, Option.some.injEq, Response.mk.injEq, overflows] at rsp
  obtain ⟨-, -, -, fits, value, -⟩ := rsp
  rw [← value, BitVec.toNat_ofNat, Nat.mod_eq_of_lt (not_le.mp (of_decide_eq_false fits))]

/-- Settles O36: the digits written read as the value, and the digits read are those of their value at their length. -/
theorem conversionsUndoEachOther : Obligations.ConversionsUndoEachOther := by
  intro s ready
  refine ⟨fun v => ?_, fun v answered dlen => ?_⟩
  · have value : d2iValue (respondOk (i2dBody v.toNat s)) = v.toNat := ready.digitsValue_i2dBody v
    refine ⟨_, _, exec_i2d ready v, exec_d2i ready.configured, ?_⟩
    rw [value]
    exact respondValue_answersOk_toNat v rfl rfl
  · obtain ⟨t, run, ok⟩ := answered
    obtain rfl := Host.Outcome.next.inj ((exec_d2i ready.configured).symm.trans run)
    have value : d2iValue s = v.toNat := eq_toNat_of_respondValue ok
    refine ⟨_, exec_i2d ready v, ?_⟩
    calc (i2dBody v.toNat s).buf = digitsOf s.base (d2iValue s) s.dlen := by rw [i2dBody_buf, i2dCount, ← dlen, value]
      _ = s.buf := digitsOf_digitsValue ready.digitsBelow

end Sys2Proof.Machine
end

section
/-! The family `44_char_mapping.md`, what `C2D` loads (R163) and the mapper as two inverses (R165). -/

namespace Sys2Proof.Machine

section
variable {k : Configuration} {text : Stream} {c d : Byte}

/-! ### Characters and digits (R32) -/

/-- A character whose `REV` entry is present is in the alphabet, at the index the entry holds. -/
theorem Configuration.Legal.alpha_of_readRev (legal : k.Legal) (entry : readRev k c = some d) :
    d.toNat < k.asize.toNat ∧ k.alpha[d.toNat]? = some c := by
  have member : c ∈ k.alpha := by
    by_contra foreign
    rw [legal.rev_absent c foreign] at entry
    cases entry
  obtain ⟨n, hn⟩ := List.mem_iff_getElem?.mp member
  have below : n < k.asize.toNat := legal.alpha_length ▸ (List.getElem?_eq_some_iff.mp hn).1
  have most := legal.size_most
  obtain rfl : BitVec.ofNat 8 n = d := Option.some.inj ((legal.rev_present n c hn).symm.trans entry)
  have index : (BitVec.ofNat 8 n).toNat = n := by
    rw [BitVec.toNat_ofNat]
    omega
  rw [index]
  exact ⟨below, hn⟩

/-- `REV` undoes `ALPHA` on the digits. -/
theorem Configuration.Legal.readRev_readAlpha (legal : k.Legal) (hd : d.toNat < k.asize.toNat) :
    readRev k (readAlpha k d) = some d := by
  have entry : k.alpha[d.toNat]? = some (readAlpha k d) := by
    have char := List.getElem?_eq_getElem (legal.alpha_length.symm ▸ hd)
    rw [readAlpha, readTable_eq char, char]
  rw [legal.rev_present _ _ entry, BitVec.ofNat_toNat, BitVec.setWidth_eq]

theorem Configuration.Legal.isSome_readRev (legal : k.Legal) (member : c ∈ k.alpha) : (readRev k c).isSome = true := by
  obtain ⟨n, hn⟩ := List.mem_iff_getElem?.mp member
  rw [legal.rev_present n c hn]
  rfl

/-! ### The loader (R163) -/

/-- A text of at most `NMAX` characters, all in the alphabet, loads: it has neither offence. -/
theorem exists_digitsOfText (fits : text.length ≤ Config.nmax) (present : ∀ c ∈ text, (readRev k c).isSome = true) :
    ∃ ds, digitsOfText k 0 text = .ok ds := by
  cases loader : digitsOfText k 0 text with
  | ok ds => exact ⟨ds, rfl⟩
  | error e =>
    rcases digitsOfText_error loader with ⟨-, long⟩ | ⟨c, hc, absent, -⟩
    · omega
    · simpa [absent] using present c hc

/-- The digits loaded are those of a legal base (R23). -/
theorem Configuration.Legal.digitsBelow_of_digitsOfText (legal : k.Legal) {ds : List Byte}
    (loads : digitsOfText k 0 text = .ok ds) : DigitsBelow k.asize.toNat ds := by
  intro d hd
  have entry : some d ∈ text.map (readRev k) := (digitsOfText_ok loads).1 ▸ List.mem_map_of_mem hd
  obtain ⟨c, -, hc⟩ := List.mem_map.mp entry
  exact (legal.alpha_of_readRev hc).1

/-- One digit for each character. -/
theorem length_of_digitsOfText {ds : List Byte} (loads : digitsOfText k 0 text = .ok ds) : ds.length = text.length := by
  simpa using congrArg List.length (digitsOfText_ok loads).1

/-- What loads fits the buffer. -/
theorem length_le_of_digitsOfText {ds : List Byte} (loads : digitsOfText k 0 text = .ok ds) :
    ds.length ≤ Config.nmax := by
  have fits := (digitsOfText_ok loads).2
  rw [length_of_digitsOfText loads]
  by_cases empty : text = []
  · simp [empty]
  · simpa using fits empty

/-- Spelling digits and loading the text gives the digits back (R165). -/
theorem Configuration.Legal.digitsOfText_map_readAlpha (legal : k.Legal) {ds : List Byte}
    (below : DigitsBelow k.asize.toNat ds) (fits : ds.length ≤ Config.nmax) :
    digitsOfText k 0 (ds.map (readAlpha k)) = .ok ds := by
  have entries : (ds.map (readAlpha k)).map (readRev k) = ds.map some := by
    rw [List.map_map]
    exact List.map_congr_left fun d hd => legal.readRev_readAlpha (below d hd)
  have present : ∀ c ∈ ds.map (readAlpha k), (readRev k c).isSome = true := by
    intro c hc
    obtain ⟨d, -, entry⟩ := List.mem_map.mp (entries ▸ List.mem_map_of_mem (f := readRev k) hc)
    rw [← entry]
    rfl
  obtain ⟨loaded, loads⟩ := exists_digitsOfText (by rwa [List.length_map]) present
  have same : loaded.map some = ds.map some := (digitsOfText_ok loads).1.trans entries
  rw [loads, List.map_injective_iff.mpr (Option.some_injective Byte) same]

/-- Loading a text and spelling the digits gives the text back (R165). -/
theorem Configuration.Legal.map_readAlpha_of_digitsOfText (legal : k.Legal) {ds : List Byte}
    (loads : digitsOfText k 0 text = .ok ds) : ds.map (readAlpha k) = text := by
  have entries := (digitsOfText_ok loads).1
  apply List.ext_getElem?
  intro i
  have entry : (ds[i]?).map some = (text[i]?).map (readRev k) := by
    rw [← List.getElem?_map, ← List.getElem?_map, entries]
  rw [List.getElem?_map]
  cases hd : ds[i]? with
  | none =>
    rw [hd] at entry
    exact (Option.map_eq_none_iff.mp entry.symm).symm
  | some d =>
    rw [hd] at entry
    obtain ⟨c, hc, hrev⟩ := Option.map_eq_some_iff.mp entry.symm
    rw [hc, Option.map_some, readAlpha, readTable_eq (legal.alpha_of_readRev hrev).2]

end

/-! ### The commands -/

theorem exec_c2d_of_ok {text : Stream} {s : State} {ds : List Byte} (configured : s.conf.cfgv = true)
    (loads : digitsOfText s.conf 0 text = .ok ds) : exec (.c2d text) s = .next (respondOk (s.setBuf ds)) := by
  have body : guardedBody (.c2d text) s = respondOk (s.setBuf ds) := by simp only [guardedBody, loads]
  rw [exec_of_configured rfl configured, body]

/-- A `C2D` that answered `OK` on a configured block has loaded its text. -/
theorem exec_c2d_ok {text : Stream} {s t : State} (configured : s.conf.cfgv = true)
    (run : exec (.c2d text) s = .next t) (ok : stCode t.st = 0) :
    ∃ ds, digitsOfText s.conf 0 text = .ok ds ∧ t = respondOk (s.setBuf ds) := by
  cases loader : digitsOfText s.conf 0 text with
  | ok ds => exact ⟨ds, rfl, Host.Outcome.next.inj (run.symm.trans (exec_c2d_of_ok configured loader))⟩
  | error e =>
    obtain ⟨u, fails, answer, -⟩ := exec_c2d_answersError configured loader
    obtain rfl := Host.Outcome.next.inj (run.symm.trans fails)
    exact absurd (answer.1.symm.trans ok) e.code_ne_zero

theorem exec_d2c {s : State} (configured : s.conf.cfgv = true) :
    exec .d2c s = .next (respondText (bufferText s) s) := exec_of_configured rfl configured

/-- Settles O47: a text without an offence loads, one digit for each character, each from `REV`. -/
theorem c2dLoadsTheText : Obligations.C2dLoadsTheText := by
  intro text s
  refine ⟨refusesUnconfigured_of_guarded rfl s, fun configured fits present => ?_⟩
  obtain ⟨ds, loads⟩ := exists_digitsOfText fits present
  refine ⟨_, exec_c2d_of_ok configured loads, respondOk_answersOk rfl rfl, rfl, rfl, length_of_digitsOfText loads,
    fun i c hc => ?_⟩
  have entry : (ds.map some)[i]? = (text.map (readRev s.conf))[i]? := by rw [(digitsOfText_ok loads).1]
  obtain ⟨d, hd, hrev⟩ : ∃ d, ds[i]? = some d ∧ some d = readRev s.conf c := by simpa [hc] using entry
  exact hd.trans hrev

/-- Settles O49: `ALPHA` and `REV` are inverse between the digits and the alphabet. -/
theorem mapperRoundTrips : Obligations.MapperRoundTrips := by
  intro s ready
  refine ⟨?_, fun text t run ok => ?_⟩
  · have loads : digitsOfText s.conf 0 (bufferText s) = .ok s.buf :=
      ready.legal.digitsOfText_map_readAlpha ready.digitsBelow ready.dlen_most
    exact ⟨_, _, _, exec_d2c ready.configured, rfl,
      exec_c2d_of_ok (s := respondText (bufferText s) s) ready.configured loads, rfl, stCode_status _⟩
  · obtain ⟨ds, loads, rfl⟩ := exec_c2d_ok ready.configured run ok
    have spelt : bufferText (respondOk (s.setBuf ds)) = text := ready.legal.map_readAlpha_of_digitsOfText loads
    refine ⟨_, exec_d2c ready.configured, ?_⟩
    rw [spelt]
    exact respondText_answersOk text _

end Sys2Proof.Machine
end

section
/-! The family `45_pipeline.md`, the composed commands: `ENC` answers a string (R178), `DEC` a value (R179, R180), neither
reads the buffer it finds (R181), and `DEC` undoes `ENC` (R182). -/

namespace Sys2Proof.Machine

/-! ### `ENC` (R178) -/

/-- The digits `ENC` spells: those of the value, after the forward rounds (R177). -/
def encDigits (v : Value) (s : State) : List Byte :=
  forwardRounds s.conf (digitsOf s.base v.toNat (i2dCount v.toNat s))

/-- `ENC` leaves its digits in the buffer and answers their text (R177, R181). -/
theorem guardedBody_enc (v : Value) (s : State) :
    guardedBody (.enc v) s =
      respondText ((encDigits v s).map (readAlpha s.conf)) (s.setBuf (encDigits v s)) := by
  have digits : pipfBody (i2dBody (readVal v) s) = s.setBuf (encDigits v s) := pipfBody_eq _
  simp only [guardedBody, digits]
  rfl

section
variable {s : State} (ready : s.Ready) (v : Value)
include ready

theorem exec_enc : exec (.enc v) s =
    .next (respondText ((encDigits v s).map (readAlpha s.conf)) (s.setBuf (encDigits v s))) := by
  rw [exec_of_configured rfl ready.configured, guardedBody_enc]

/-- The rounds keep the number of the digits and their base. -/
theorem State.Ready.encDigits_mem : encDigits v s ∈ digitArrays s.base (i2dCount v.toNat s) :=
  forwardRounds_mem ready.legal ⟨digitsOf_length _ _ _, digitsOf_lt ready.base_pos⟩

theorem State.Ready.setBuf_encDigits : (s.setBuf (encDigits v s)).Ready :=
  have ⟨length, below⟩ := ready.encDigits_mem v
  ready.setBuf below (length.trans_le (ready.i2dCount_le v))

/-- The backward rounds give the digits of the value back (R175). -/
theorem State.Ready.backwardRounds_encDigits :
    backwardRounds s.conf (encDigits v s) = digitsOf s.base v.toNat (i2dCount v.toNat s) :=
  backwardRounds_forwardRounds ready.legal (digitsOf_lt ready.base_pos)

end

/-- Settles O55: the text has one character for each digit, and every digit has its character in the alphabet. -/
theorem encAlwaysAnswersAString : Obligations.EncAlwaysAnswersAString := by
  intro v s ready
  obtain ⟨length, -⟩ := ready.encDigits_mem v
  obtain ⟨st, rsp, -, -⟩ := respondText_answersOk ((encDigits v s).map (readAlpha s.conf)) (s.setBuf (encDigits v s))
  exact ⟨_, _, exec_enc ready v, ⟨st, rsp, rfl, rfl⟩, rfl, (List.length_map _).symm, (List.length_map _).trans length,
    fun c spelt => mem_alpha_of_mem_bufferText (ready.setBuf_encDigits v) spelt⟩

/-! ### `DEC` (R179, R180) -/

/-- `DEC` of a text that loads leaves the digits after the backward rounds and answers their value. -/
theorem guardedBody_dec_of_ok {text : Stream} {s : State} {ds : List Byte} (loads : digitsOfText s.conf 0 text = .ok ds) :
    guardedBody (.dec text) s =
      respondValue (digitsValue s.base (backwardRounds s.conf ds)) (s.setBuf (backwardRounds s.conf ds)) := by
  have digits : pipbBody (s.setBuf ds) = s.setBuf (backwardRounds s.conf ds) := pipbBody_eq _
  simp only [guardedBody, loads, digits]
  rfl

theorem exec_dec_of_ok {text : Stream} {s : State} {ds : List Byte} (configured : s.conf.cfgv = true)
    (loads : digitsOfText s.conf 0 text = .ok ds) :
    exec (.dec text) s =
      .next (respondValue (digitsValue s.base (backwardRounds s.conf ds)) (s.setBuf (backwardRounds s.conf ds))) := by
  rw [exec_of_configured rfl configured, guardedBody_dec_of_ok loads]

/-- Settles O57: the text loads, and the value is that of the digits after the backward rounds. -/
theorem decAlwaysAnswersAValue : Obligations.DecAlwaysAnswersAValue := by
  intro text s ready fits members
  obtain ⟨ds, loads⟩ := exists_digitsOfText fits fun c hc => ready.legal.isSome_readRev (members c hc)
  obtain ⟨length, -⟩ := backwardRounds_mem ready.legal ⟨rfl, ready.legal.digitsBelow_of_digitsOfText loads⟩
  have value := digitsValue_eq_weightedSum s.base (backwardRounds s.conf ds)
  obtain ⟨st, rsp, -, -⟩ := respondValue_answersOk (digitsValue s.base (backwardRounds s.conf ds))
    (s.setBuf (backwardRounds s.conf ds))
  refine ⟨_, exec_dec_of_ok ready.configured loads, rfl, length.trans (length_of_digitsOfText loads), ?_⟩
  rw [respondValue_buf, setBuf_buf, ← value]
  exact ⟨st, rsp, rfl, rfl⟩

/-! ### The buffer found, and the round trip (R181, R182) -/

/-- Settles O58: both commands write the buffer before they read it. -/
theorem macrosIgnoreTheBufferTheyFind : Obligations.MacrosIgnoreTheBufferTheyFind := by
  intro i s digits which configured
  have found : ({ s with buf := digits } : State).conf.cfgv = true := configured
  rcases which with ⟨v, rfl⟩ | ⟨text, rfl⟩
  · rw [exec_of_configured rfl found, exec_of_configured rfl configured]
    rfl
  · rw [exec_of_configured rfl found, exec_of_configured rfl configured]
    rfl

/-- Settles O59: the text loads as the digits `ENC` spelt, the backward rounds give those of the value, and they read as
the value. The second state enters by its configuration alone. -/
theorem decodeOfEncodedValueIsTheValue : Obligations.DecodeOfEncodedValueIsTheValue := by
  intro v s ready
  refine ⟨_, _, exec_enc ready v, rfl, fun s' conf => ?_⟩
  have configured : s'.conf.cfgv = true := conf ▸ ready.configured
  have base : s'.base = s.base := congrArg (fun k => k.asize.toNat) conf
  have digits := ready.setBuf_encDigits v
  have loads : digitsOfText s'.conf 0 ((encDigits v s).map (readAlpha s.conf)) = .ok (encDigits v s) := by
    rw [conf]
    exact ready.legal.digitsOfText_map_readAlpha digits.digitsBelow digits.dlen_most
  have value : digitsValue s'.base (backwardRounds s'.conf (encDigits v s)) = v.toNat := by
    rw [base, conf, ready.backwardRounds_encDigits v]
    exact ready.digitsValue_i2dBody v
  refine ⟨_, exec_dec_of_ok configured loads, ?_⟩
  rw [value]
  exact respondValue_answersOk_toNat v rfl rfl

/-! ### Every guarded command keeps a block ready (R22, R23) -/

/-- A failed load leaves no digit (R164). -/
theorem State.Ready.loadFailed {s : State} (ready : s.Ready) (e : Cause) : (loadFailed e s).Ready :=
  (ready.setBuf (List.forall_mem_nil _) (Nat.zero_le _)).respond _

theorem State.Ready.guardedBody {s : State} (ready : s.Ready) (i : Instr) : (guardedBody i s).Ready := by
  have low := ready.base_pos
  have high := ready.legal.size_most
  have rounds : s.buf ∈ digitArrays s.base s.dlen := ⟨rfl, ready.digitsBelow⟩
  cases i with
  | cfg | b64e | b64d => exact ready
  | d2i | d2c => exact ready.respond _
  | i2d v => exact State.Ready.respond (ready.i2dBody v) _
  | rotl => exact ready.of_rewrites rewrites_rotl (digitsBelow_rotateLeft ready.digitsBelow) (rotateLeft_length _)
  | rotr => exact ready.of_rewrites rewrites_rotr (digitsBelow_rotateRight ready.digitsBelow) (rotateRight_length _)
  | permf =>
    exact ready.of_rewrites rewrites_permf
      (digitsBelow_substitute (fun _ => ready.legal.readPerm_lt) ready.digitsBelow) (substitute_length _ _)
  | permb =>
    exact ready.of_rewrites rewrites_permb
      (digitsBelow_substitute (fun _ => ready.legal.readInv_lt) ready.digitsBelow) (substitute_length _ _)
  | casf => exact ready.of_rewrites rewrites_casf (digitsBelow_cascadeForward low high 0 _) (cascadeForward_length _ _ _)
  | casb =>
    exact ready.of_rewrites rewrites_casb (digitsBelow_cascadeBackward low high 0 _) (cascadeBackward_length _ _ _)
  | pipf =>
    obtain ⟨length, below⟩ := forwardRounds_mem ready.legal rounds
    exact ready.of_rewrites rewrites_pipf below length
  | pipb =>
    obtain ⟨length, below⟩ := backwardRounds_mem ready.legal rounds
    exact ready.of_rewrites rewrites_pipb below length
  | enc v =>
    rw [guardedBody_enc]
    exact (ready.setBuf_encDigits v).respond _
  | c2d text =>
    cases loader : digitsOfText s.conf 0 text with
    | ok ds =>
      simp only [Machine.guardedBody, loader]
      exact (ready.setBuf (ready.legal.digitsBelow_of_digitsOfText loader) (length_le_of_digitsOfText loader)).respond _
    | error e =>
      simp only [Machine.guardedBody, loader]
      exact ready.loadFailed e
  | dec text =>
    cases loader : digitsOfText s.conf 0 text with
    | ok ds =>
      obtain ⟨length, below⟩ := backwardRounds_mem ready.legal ⟨rfl, ready.legal.digitsBelow_of_digitsOfText loader⟩
      rw [guardedBody_dec_of_ok loader]
      exact (ready.setBuf below (length.trans_le (length_le_of_digitsOfText loader))).respond _
    | error e =>
      simp only [Machine.guardedBody, loader]
      exact ready.loadFailed e

end Sys2Proof.Machine
end

section
/-! The rules over all commands: how a command ends (R201 to R203, R230), which errors it may answer (R197), that `ST` is
not read (R31, R206), and the invariant that every step keeps (R22, R23, R31, R32, R191). -/

namespace Sys2Proof.Machine

/-! ### The errors of the construction (R197) -/

/-- The pair of code and sub-code under which R191 lists a cause. -/
def Cause.pair (e : Cause) : BitVec 4 × BitVec 2 := (e.code, e.sub)

theorem checkAlphabet_error {sa : Stream} {e : Cause} (h : checkAlphabet sa = some e) :
    e = .alphabetSize ∨ e = .alphabetDuplicate := by
  unfold checkAlphabet at h
  split at h
  · exact .inl (Option.some.inj h).symm
  · split at h
    · exact .inr (Option.some.inj h).symm
    · cases h

theorem checkMinLength_error {m : Int} {e : Cause} (h : checkMinLength m = some e) :
    e = .configMinLength ∨ e = .capacityMinLength := by
  unfold checkMinLength at h
  split at h
  · exact .inl (Option.some.inj h).symm
  · split at h
    · exact .inr (Option.some.inj h).symm
    · cases h

theorem checkPermutation_error {size : Nat} {p : List Byte} {e : Cause} (h : checkPermutation size p = some e) :
    e = .permutationLength ∨ e = .permutationNotUnique ∨ e = .permutationOutOfRange := by
  unfold checkPermutation at h
  split at h
  · exact .inl (Option.some.inj h).symm
  · split at h
    · exact .inr (.inl (Option.some.inj h).symm)
    · split at h
      · exact .inr (.inr (Option.some.inj h).symm)
      · cases h

/-- All that the construction can answer when it fails: the error of the one test that failed. -/
theorem construct_error {sa sb : Stream} {len : Length} {e : Cause} (h : construct sa sb len = .error e) :
    checkAlphabet sa = some e ∨ checkMinLength (readLen len) = some e ∨ decodeText sb = .error e ∨
      ∃ p, checkPermutation sa.length p = some e := by
  unfold construct at h
  split at h
  · next ha => exact .inl (Except.error.inj h ▸ ha)
  · split at h
    · next hm => exact .inr (.inl (Except.error.inj h ▸ hm))
    · split at h
      · next hd => exact .inr (.inr (.inl (Except.error.inj h ▸ hd)))
      · split at h
        · next p _ _ hp => exact .inr (.inr (.inr ⟨_, Except.error.inj h ▸ hp⟩))
        · cases h

/-- The errors of the Base64 reader stand in the row of `B64D`. -/
theorem Cause.pair_mem_of_isFormat {e : Cause} (h : e.isFormat = true) :
    e.pair ∈ [((3 : BitVec 4), (1 : BitVec 2)), (3, 2), (3, 3)] := by
  cases e with
  | formatLength | formatCharacter | formatPadding => simp [Cause.pair, Cause.code, Cause.sub]
  | _ => cases h

/-- The errors of the construction stand in the row of `CFG`. -/
theorem construct_error_mem {sa sb : Stream} {len : Length} {e : Cause} (h : construct sa sb len = .error e) :
    e.pair ∈ mayRaise (.cfg sa sb len) := by
  rcases construct_error h with ha | hm | hd | ⟨p, hp⟩
  · rcases checkAlphabet_error ha with rfl | rfl <;> simp [mayRaise, Cause.pair, Cause.code, Cause.sub]
  · rcases checkMinLength_error hm with rfl | rfl <;> simp [mayRaise, Cause.pair, Cause.code, Cause.sub]
  · have format : [((3 : BitVec 4), (1 : BitVec 2)), (3, 2), (3, 3)] ⊆ mayRaise (.cfg sa sb len) := by
      simp [mayRaise]
    exact format (Cause.pair_mem_of_isFormat (decodeText_error hd))
  · rcases checkPermutation_error hp with rfl | rfl | rfl <;> simp [mayRaise, Cause.pair, Cause.code, Cause.sub]

/-! ### How a command ends -/

/-- All the ways a command can end: it answers `OK`, with an overflow from `D2I` and `DEC` only (R207); it raises an error of
its row and leaves the rest of the block alone (R202); or its text fails to load, which empties the buffer (R164). -/
inductive Ends (i : Instr) (s : State) : State → Prop where
  | ok (u : State) (rval : Value) (ovf : Bool) (so : Stream)
      (overflow : ovf = true → i = .d2i ∨ ∃ text, i = .dec text) : Ends i s (u.respond (okResponse rval ovf so))
  | raised (e : Cause) (listed : e.pair ∈ mayRaise i) (unloaded : loadsText i = true → e = .notConfigured) :
      Ends i s (raise e s)
  | loadFailed (e : Cause) (listed : e.pair ∈ mayRaise i) (loads : loadsText i = true)
      (code : e.code = 5 ∨ e.code = 9) : Ends i s (loadFailed e s)

/-- An answer without overflow is one of the ways to end. -/
theorem Ends.plain {i : Instr} {s : State} (u : State) (rval : Value) (so : Stream) :
    Ends i s (u.respond (okResponse rval false so)) := .ok u rval false so nofun

/-- A text that does not load ends its command with one of two errors (R163, R199). -/
theorem ends_loadFailed {i : Instr} {s : State} {k : Configuration} {text : Stream} {e : Cause}
    (which : i = .c2d text ∨ i = .dec text) (fails : digitsOfText k 0 text = .error e) :
    Ends i s (Machine.loadFailed e s) := by
  have pair : e.pair = (5, 0) ∨ e.pair = (9, 2) := by
    rcases digitsOfText_error fails with ⟨rfl, -⟩ | ⟨c, -, -, rfl⟩
    · exact .inr rfl
    · exact .inl rfl
  have code : e.code = 5 ∨ e.code = 9 := pair.imp (congrArg Prod.fst) (congrArg Prod.fst)
  rcases which with rfl | rfl <;> exact .loadFailed e (by rcases pair with h | h <;> simp [h, mayRaise]) rfl code

theorem guardedBody_ends {i : Instr} (guarded : worksUnconfigured i = false) (s : State) :
    Ends i s (guardedBody i s) := by
  cases i with
  | cfg | b64e | b64d => cases guarded
  | d2i => exact .ok s _ _ _ fun _ => .inl rfl
  | dec text =>
    cases loader : digitsOfText s.conf 0 text with
    | ok ds =>
      rw [guardedBody_dec_of_ok loader]
      exact .ok _ _ _ _ fun _ => .inr ⟨text, rfl⟩
    | error e =>
      simp only [guardedBody, loader]
      exact ends_loadFailed (.inr rfl) loader
  | c2d text =>
    cases loader : digitsOfText s.conf 0 text with
    | ok ds =>
      simp only [guardedBody, loader]
      exact .plain _ _ _
    | error e =>
      simp only [guardedBody, loader]
      exact ends_loadFailed (.inl rfl) loader
  | _ => exact .plain _ _ _

/-- Every guarded command has `NotConfigured` in its row (R197, R198). -/
theorem notConfigured_mem_mayRaise {i : Instr} (guarded : worksUnconfigured i = false) :
    Cause.notConfigured.pair ∈ mayRaise i := by
  cases i with
  | cfg | b64e | b64d => cases guarded
  | _ => simp [mayRaise, Cause.pair, Cause.code, Cause.sub]

/-- `B64D` delivers the bytes that its reader gives (R94). -/
theorem exec_b64d_of_ok {sa : Stream} {bytes : List Byte} (h : decodeText sa = .ok bytes) (s : State) :
    exec (.b64d sa) s = .next (respondText bytes s) := by
  change execB64d sa s = _
  simp only [execB64d, h]

/-- Every command ends, in one of the three ways. -/
theorem exec_ends (i : Instr) (s : State) : ∃ t, exec i s = .next t ∧ Ends i s t := by
  cases guard : worksUnconfigured i with
  | false =>
    cases configured : s.conf.cfgv with
    | true => exact ⟨_, exec_of_configured guard configured, guardedBody_ends guard s⟩
    | false =>
      exact ⟨_, (exec_eq_whenConfigured guard s).trans (whenConfigured_false configured),
        .raised _ (notConfigured_mem_mayRaise guard) fun _ => rfl⟩
  | true =>
    cases i with
    | cfg sa sb len =>
      cases built : construct sa sb len with
      | ok k => exact ⟨_, exec_cfg_of_ok built s, .plain _ _ _⟩
      | error e => exact ⟨_, exec_cfg_of_error built s, .raised e (construct_error_mem built) nofun⟩
    | b64e sa => exact ⟨_, exec_b64e sa s, .plain _ _ _⟩
    | b64d sa =>
      cases read : decodeText sa with
      | ok bytes => exact ⟨_, exec_b64d_of_ok read s, .plain _ _ _⟩
      | error e =>
        exact ⟨_, exec_b64d_of_error read s, .raised e (Cause.pair_mem_of_isFormat (decodeText_error read)) nofun⟩
    | _ => cases guard

theorem ends_of_exec {i : Instr} {s t : State} (run : exec i s = .next t) : Ends i s t := by
  obtain ⟨u, run', ends⟩ := exec_ends i s
  obtain rfl := Host.Outcome.next.inj (run.symm.trans run')
  exact ends

/-! ### The status that an end leaves -/

@[simp] theorem okResponse_code (rval : Value) (ovf : Bool) (so : Stream) : (okResponse rval ovf so).code = 0 := rfl
@[simp] theorem okResponse_sub (rval : Value) (ovf : Bool) (so : Stream) : (okResponse rval ovf so).sub = 0 := rfl
@[simp] theorem okResponse_info (rval : Value) (ovf : Bool) (so : Stream) : (okResponse rval ovf so).info = 0 := rfl
@[simp] theorem okResponse_ovf (rval : Value) (ovf : Bool) (so : Stream) : (okResponse rval ovf so).ovf = ovf := rfl
@[simp] theorem errorResponse_code (e : Cause) : (errorResponse e).code = e.code := rfl
@[simp] theorem errorResponse_sub (e : Cause) : (errorResponse e).sub = e.sub := rfl
@[simp] theorem errorResponse_info (e : Cause) : (errorResponse e).info = e.info := rfl
@[simp] theorem errorResponse_ovf (e : Cause) : (errorResponse e).ovf = false := rfl

/-- An error answer, with its fields read off `ST` (R31). -/
theorem AnswersError.of_status {s t : State} {e : Cause} (h : AnswersError s t e.code e.sub e.info) :
    AnswersError s t (stCode t.st) (stSub t.st) (stInfo t.st) := by
  obtain ⟨code, sub, info, -⟩ := id h
  rwa [code, sub, info]

/-- Settles O13: each of the three ends gives its response, and `ST` is the status of it. -/
theorem everyCommandEnds : Obligations.EveryCommandEnds := by
  intro i s
  obtain ⟨t, run, ends⟩ := exec_ends i s
  refine ⟨t, ?_⟩
  cases ends with
  | ok => exact ⟨_, run, rfl, rfl⟩
  | raised => exact ⟨_, run, rfl, rfl⟩
  | loadFailed => exact ⟨_, run, rfl, rfl⟩

/-- Settles O15: of the two ends with an error, the failed load alone touches the buffer, and its two codes are not that of
`NotConfigured`. -/
theorem failedCommandsLeaveNoResult : Obligations.FailedCommandsLeaveNoResult := by
  intro i s t run failed
  cases ends_of_exec run with
  | ok => simp at failed
  | raised e listed unloaded =>
    refine ⟨(raise_answersError e s).of_status, ?_⟩
    have kept : ¬ (loadsText i = true ∧ (stCode (raise e s).st = 5 ∨ stCode (raise e s).st = 9)) := by
      rintro ⟨loads, code⟩
      obtain rfl := unloaded loads
      simp [Cause.code] at code
    rw [if_neg kept, raise_buf]
  | loadFailed e listed loads code =>
    have answer : AnswersError s (loadFailed e s) e.code e.sub e.info := raise_answersError e (s.setBuf [])
    refine ⟨answer.of_status, ?_⟩
    rw [if_pos ⟨loads, answer.1.symm ▸ code⟩]
    rfl

/-- Settles O16: both ends with an error carry one of the command's row. -/
theorem commandsRaiseOnlyTheirErrors : Obligations.CommandsRaiseOnlyTheirErrors := by
  intro i s t run failed
  cases ends_of_exec run with
  | ok => simp at failed
  | raised e listed => simpa [Cause.pair] using listed
  | loadFailed e listed => simpa [Cause.pair] using listed

/-- Settles O17: an error response carries no overflow, and `OK` carries one from the two conversions only. -/
theorem overflowFlagOnlyFromConversions : Obligations.OverflowFlagOnlyFromConversions := by
  intro i s t run overflow
  cases ends_of_exec run with
  | ok u rval ovf so from_conversion => exact ⟨by simp, from_conversion (by simpa using overflow)⟩
  | raised e => simp at overflow
  | loadFailed e => simp at overflow

/-! ### `ST` is not read (R31, R206) -/

/-- The body of a guarded command sees neither `ST` nor an earlier response: the rounds are a function of the configuration
and the digits, and the command writes all of both. -/
theorem guardedBody_of_status {i : Instr} (guarded : worksUnconfigured i = false) (s : State) (st : BitVec 15)
    (r : Option Response) : guardedBody i { s with st := st, rsp := r } = guardedBody i s := by
  cases i with
  | cfg | b64e | b64d => cases guarded
  | pipf => rw [rewrites_pipf.2, rewrites_pipf.2]; rfl
  | pipb => rw [rewrites_pipb.2, rewrites_pipb.2]; rfl
  | enc v => rw [guardedBody_enc, guardedBody_enc]; rfl
  | dec text =>
    cases loader : digitsOfText s.conf 0 text with
    | ok ds => rw [guardedBody_dec_of_ok loader, guardedBody_dec_of_ok (s := { s with st := st, rsp := r }) loader]; rfl
    | error e => simp only [guardedBody, loader]; rfl
  | _ => rfl

/-- Settles O18: a guarded command by its body, the other three by what they answer. -/
theorem noCommandReadsTheStatus : Obligations.NoCommandReadsTheStatus := by
  intro i s st r
  cases guard : worksUnconfigured i with
  | false =>
    rw [exec_eq_whenConfigured guard, exec_eq_whenConfigured guard, whenConfigured, whenConfigured,
      guardedBody_of_status guard]
    rfl
  | true =>
    cases i with
    | cfg sa sb len =>
      cases built : construct sa sb len with
      | ok k => rw [exec_cfg_of_ok built, exec_cfg_of_ok built]; rfl
      | error e => rw [exec_cfg_of_error built, exec_cfg_of_error built]; rfl
    | b64e sa => rfl
    | b64d sa =>
      cases read : decodeText sa with
      | ok bytes => rw [exec_b64d_of_ok read, exec_b64d_of_ok read]; rfl
      | error e => rw [exec_b64d_of_error read, exec_b64d_of_error read]; rfl
    | _ => cases guard

/-! ### The invariant (R22, R23, R31, R32, R191) -/

/-- The status of every error is one that R191 lists. -/
theorem legalStatus_errorResponse (e : Cause) : LegalStatus (errorResponse e).status := by
  cases e <;> simp [LegalStatus, statusPairs, Cause.code, Cause.sub, Cause.info]

theorem legalStatus_okResponse (rval : Value) (ovf : Bool) (so : Stream) : LegalStatus (okResponse rval ovf so).status := by
  simp [LegalStatus, statusPairs]

/-- The part of the invariant about the configuration and the digits. -/
structure State.Settled (s : State) : Prop where
  unconfigured : s.conf.cfgv = false → s.conf = Configuration.reset ∧ s.buf = []
  configured : s.conf.cfgv = true → s.Ready

theorem State.Inv.settled {s : State} (inv : s.Inv) : s.Settled := ⟨inv.unconfigured, inv.configured⟩

/-- What reads neither the ports nor the status holds of a state with the same configuration and digits. -/
theorem State.Settled.of_eq {s t : State} (h : s.Settled) (conf : t.conf = s.conf) (buf : t.buf = s.buf) : t.Settled where
  unconfigured off := by
    rw [conf] at off ⊢
    rw [buf]
    exact h.unconfigured off
  configured on := by
    have ready := h.configured (conf ▸ on)
    exact ⟨on, conf ▸ ready.legal, by rw [buf, State.base, conf]; exact ready.digits_below,
      by rw [State.dlen, buf]; exact ready.dlen_most⟩

/-- A state that has just answered `r` keeps the invariant when its configuration and digits do. -/
theorem State.Settled.inv {t : State} (h : t.Settled) {r : Response} (rsp : t.rsp = some r) (st : t.st = r.status)
    (status : LegalStatus r.status) (empty : r.code ≠ 0 → r.rval = 0 ∧ r.so = []) : t.Inv where
  unconfigured := h.unconfigured
  configured := h.configured
  status := st ▸ status
  copy _ hr := st.trans (congrArg Response.status (Option.some.inj (rsp.symm.trans hr)))
  nothing_on_error _ hr := Option.some.inj (rsp.symm.trans hr) ▸ empty

/-- Every command keeps the part about the configuration and the digits: `CFG` commits a legal configuration with no digit,
a guarded command keeps a ready block ready, and the others leave both alone. -/
theorem State.Settled.exec {i : Instr} {s t : State} (h : s.Settled) (run : exec i s = .next t) : t.Settled := by
  cases guard : worksUnconfigured i with
  | false =>
    rw [exec_eq_whenConfigured guard] at run
    rcases whenConfigured_next run with ⟨on, rfl⟩ | ⟨-, rfl⟩
    · have ready := (h.configured on).guardedBody i
      exact ⟨fun off => absurd (off.symm.trans ready.configured) nofun, fun _ => ready⟩
    · exact h.of_eq rfl rfl
  | true =>
    cases i with
    | cfg sa sb len =>
      rcases exec_cfg_next run with ⟨k, built, rfl⟩ | ⟨e, -, rfl⟩
      · obtain ⟨on, legal⟩ := construct_ok_legal built
        exact ⟨fun off => absurd (off.symm.trans on) nofun,
          fun _ => ⟨on, legal, List.forall_mem_nil _, Nat.zero_le _⟩⟩
      · exact h.of_eq rfl rfl
    | b64e sa =>
      obtain rfl := Host.Outcome.next.inj ((exec_b64e sa s).symm.trans run)
      exact h.of_eq rfl rfl
    | b64d sa =>
      rcases exec_b64d_next run with ⟨bytes, -, rfl⟩ | ⟨e, -, rfl⟩ <;> exact h.of_eq rfl rfl
    | _ => cases guard

/-- An error response delivers nothing (R203), and its status is listed. -/
theorem State.Settled.inv_of_error {t : State} (h : t.Settled) {e : Cause} (rsp : t.rsp = some (errorResponse e))
    (st : t.st = (errorResponse e).status) : t.Inv :=
  h.inv rsp st (legalStatus_errorResponse e) fun _ => ⟨rfl, rfl⟩

/-- A command keeps the invariant: its response is one of the three ends. -/
theorem State.Settled.inv_of_exec {i : Instr} {s t : State} (h : s.Settled) (run : Machine.exec i s = .next t) : t.Inv := by
  have settled := h.exec run
  cases ends_of_exec run with
  | ok u rval ovf so => exact settled.inv rfl rfl (legalStatus_okResponse rval ovf so) fun failed => absurd rfl failed
  | raised e => exact settled.inv_of_error rfl rfl
  | loadFailed e => exact settled.inv_of_error rfl rfl

/-- A state without a configuration, a digit or a response, with a zero status, has the invariant (R37). -/
theorem inv_of_reset {s : State} (conf : s.conf = Configuration.reset) (buf : s.buf = []) (st : s.st = 0)
    (rsp : s.rsp = none) : s.Inv where
  unconfigured _ := ⟨conf, buf⟩
  configured on := absurd (conf ▸ on : Configuration.reset.cfgv = true) nofun
  status := by
    rw [st, show (0 : BitVec 15) = (okResponse 0 false []).status from (okResponse_status 0 false []).symm]
    exact legalStatus_okResponse 0 false []
  copy r hr := absurd (rsp.symm.trans hr) nofun
  nothing_on_error r hr := absurd (rsp.symm.trans hr) nofun

/-- Settles O12: the values of R37 are the case `inv_of_reset` speaks of. -/
theorem invariantsHoldAtReset : Obligations.InvariantsHoldAtReset := inv_of_reset rfl rfl rfl rfl

/-- Settles O11, by what a step can do: a reset gives the values of R37, the port's own steps leave the configuration, the
digits and the status alone, and a command, legal or not, ends with a response. -/
theorem everyStepKeepsTheInvariants : Obligations.EveryStepKeepsTheInvariants := by
  intro s t inv run
  rcases step_cases run with ⟨-, rfl⟩ | ⟨r, -, rfl⟩ | rfl | rfl | ⟨op, rfl⟩ | ⟨i, command⟩
  · exact inv_of_reset rfl rfl rfl rfl
  · have settled : (deliver r s).Settled := inv.settled.of_eq rfl rfl
    exact ⟨settled.unconfigured, settled.configured, inv.status, nofun, nofun⟩
  · exact inv
  · have settled : (await s).Settled := inv.settled.of_eq rfl rfl
    exact ⟨settled.unconfigured, settled.configured, inv.status, inv.copy, inv.nothing_on_error⟩
  · have settled : (raise (.illegalCommand op) (accept s)).Settled := inv.settled.of_eq rfl rfl
    exact settled.inv_of_error rfl rfl
  · have accepted : (accept s).Settled := inv.settled.of_eq rfl rfl
    exact accepted.inv_of_exec command

end Sys2Proof.Machine
end

section
/-! The encoder against the decoder (R70 to R75), the opcodes outside the map (R77), and the steps in which the port decides:
a command to run, an illegal one, a wait, a delivery and a reset (R71, R200, R206, R221, R228). -/

namespace Sys2Proof

/-! ### The encoder undoes the decoder, format by format (R72) -/

/-- The word `op` carries, under the format `f`, commands that are decoded from the ports of `f` and encoded on them. -/
def CodedBy (f : Format) (op : Byte) : Prop :=
  match f with
  | .N => ∃ i : Instr, (∀ c : Command, decode { c with op := op } = .ok i) ∧ encode i = bareCommand op
  | .V => ∃ make : Value → Instr, (∀ c : Command, decode { c with op := op } = .ok (make c.val)) ∧
      ∀ v, encode (make v) = { bareCommand op with val := v }
  | .S => ∃ make : Stream → Instr, (∀ c : Command, decode { c with op := op } = decodeS c make) ∧
      ∀ sa, encode (make sa) = (bareCommand op).withSA sa
  | .C => ∃ make : Stream → Stream → Length → Instr, (∀ c : Command, decode { c with op := op } = decodeC c make) ∧
      ∀ sa sb len, encode (make sa sb len) = { ((bareCommand op).withSA sa).withSB sb with len := len }

/-- Every row of R75, in the order of the table. -/
theorem codedBy_of_mem_opcodeTable : ∀ row ∈ opcodeTable, CodedBy row.format row.op := by
  simp only [opcodeTable, List.forall_mem_cons, CodedBy]
  exact ⟨⟨.cfg, fun _ => rfl, fun _ _ _ => rfl⟩, ⟨.enc, fun _ => rfl, fun _ => rfl⟩, ⟨.dec, fun _ => rfl, fun _ => rfl⟩,
    ⟨.b64e, fun _ => rfl, fun _ => rfl⟩, ⟨.b64d, fun _ => rfl, fun _ => rfl⟩, ⟨.pipf, fun _ => rfl, rfl⟩,
    ⟨.pipb, fun _ => rfl, rfl⟩, ⟨.i2d, fun _ => rfl, fun _ => rfl⟩, ⟨.d2i, fun _ => rfl, rfl⟩,
    ⟨.c2d, fun _ => rfl, fun _ => rfl⟩, ⟨.d2c, fun _ => rfl, rfl⟩, ⟨.rotl, fun _ => rfl, rfl⟩,
    ⟨.rotr, fun _ => rfl, rfl⟩, ⟨.permf, fun _ => rfl, rfl⟩, ⟨.permb, fun _ => rfl, rfl⟩,
    ⟨.casf, fun _ => rfl, rfl⟩, ⟨.casb, fun _ => rfl, rfl⟩, nofun⟩

theorem codedBy_of_findRow {op : Byte} {row : OpcodeRow} (h : findRow op = some row) : CodedBy row.format op := by
  obtain ⟨hmem, rfl⟩ := mem_and_op_of_findRow h
  exact codedBy_of_mem_opcodeTable row hmem

/-! ### Decoding what was encoded (R73) -/

/-- A stream that the length port can declare is read back whole. -/
theorem readStream_declared {s : Stream} (fits : streamFits s = true) : readStream (BitVec.ofNat 32 s.length) s = some s :=
  readStream_complete (by rw [BitVec.toNat_ofNat, Nat.mod_eq_of_lt (of_decide_eq_true fits)])

theorem decodeS_withSA (c : Command) {sa : Stream} (fits : streamFits sa = true) (make : Stream → Instr) :
    decodeS (c.withSA sa) make = .ok (make sa) := by
  simp only [decodeS, Command.withSA, readStream_declared fits]

/-- Settles O1: each command is decoded by its own opcode, from the ports the encoder put its operands on. -/
theorem decodeOfEncodeIsTheCommand : Obligations.DecodeOfEncodeIsTheCommand := by
  intro i wf
  cases i with
  | cfg sa sb len =>
    obtain ⟨hsa, hsb⟩ := Bool.and_eq_true_iff.mp wf
    change decodeC _ .cfg = _
    simp only [decodeC, encode, Command.withSA, Command.withSB, readStream_declared hsa, readStream_declared hsb]
  | b64e sa =>
    have domain : sa.length ≤ 3221225469 := of_decide_eq_true wf
    exact decodeS_withSA (bareCommand 0x04) (decide_eq_true (by omega)) .b64e
  | dec sa => exact decodeS_withSA (bareCommand 0x03) wf .dec
  | b64d sa => exact decodeS_withSA (bareCommand 0x05) wf .b64d
  | c2d sa => exact decodeS_withSA (bareCommand 0x12) wf .c2d
  | _ => rfl

/-! ### Opcodes outside the map (R77) -/

/-- An opcode without a row is none of the seventeen words. -/
theorem findRow_eq_none_iff {op : Byte} : findRow op = none ↔ ∀ row ∈ opcodeTable, row.op ≠ op := by
  simp [findRow]

/-- The decoder refuses such an opcode by name, whatever stands on the operand ports. -/
theorem decode_of_findRow_none {c : Command} (h : findRow c.op = none) : decode c = .error (.illegalCommand c.op) := by
  have word {row : OpcodeRow} (listed : row ∈ opcodeTable) : c.op.toNat ≠ row.op.toNat := fun e =>
    findRow_eq_none_iff.mp h row listed (BitVec.eq_of_toNat_eq e.symm)
  simp only [opcodeTable, List.mem_cons, List.not_mem_nil, or_false, forall_eq_or_imp, forall_eq,
    BitVec.reduceToNat] at word
  unfold decode
  split
  case h_18 => rfl
  all_goals omega

/-- A command that decodes has an opcode of the map. -/
theorem exists_findRow_of_decode {c : Command} {i : Instr} (h : decode c = .ok i) : ∃ row, findRow c.op = some row := by
  cases found : findRow c.op with
  | some row => exact ⟨row, rfl⟩
  | none => exact absurd ((decode_of_findRow_none found).symm.trans h) nofun

/-- The words outside the map lie in its five gaps (R75, R77). -/
theorem findRow_eq_none_iff_gap (op : Byte) : findRow op = none ↔
    op.toNat = 0 ∨ op.toNat = 0x06 ∨ op.toNat = 0x07 ∨ (0x0A ≤ op.toNat ∧ op.toNat ≤ 0x0F) ∨ 0x1A ≤ op.toNat := by
  simp only [findRow_eq_none_iff, opcodeTable, List.forall_mem_cons, List.not_mem_nil, false_implies, implies_true,
    and_true, ne_eq, ← BitVec.toNat_inj, BitVec.reduceToNat]
  omega

end Sys2Proof

namespace Sys2Proof.Machine

/-- An opcode that follows a format encodes on the named ports what it decodes from them: the lengths declared are those
of the streams delivered. -/
theorem encode_of_decode {f : Format} {c : Command} {i : Instr} (coded : CodedBy f c.op) (complete : c.wf = true)
    (h : decode c = .ok i) : encode i = namedPorts f c := by
  obtain ⟨hsa, hsb⟩ := c.wf_iff.mp complete
  have declaredA : BitVec.ofNat 32 c.sa.length = c.saLen := by rw [hsa, BitVec.ofNat_toNat, BitVec.setWidth_eq]
  have declaredB : BitVec.ofNat 32 c.sb.length = c.sbLen := by rw [hsb, BitVec.ofNat_toNat, BitVec.setWidth_eq]
  cases f with
  | N =>
    obtain ⟨j, hdecode, hencode⟩ := coded
    obtain rfl : j = i := Except.ok.inj ((hdecode c).symm.trans h)
    exact hencode
  | V =>
    obtain ⟨make, hdecode, hencode⟩ := coded
    obtain rfl : make c.val = i := Except.ok.inj ((hdecode c).symm.trans h)
    exact hencode c.val
  | S =>
    obtain ⟨make, hdecode, hencode⟩ := coded
    obtain rfl : make c.sa = i :=
      Except.ok.inj ((decodeS_complete make complete).symm.trans ((hdecode c).symm.trans h))
    rw [hencode, Command.withSA, declaredA]
    rfl
  | C =>
    obtain ⟨make, hdecode, hencode⟩ := coded
    obtain rfl : make c.sa c.sb c.len = i :=
      Except.ok.inj ((decodeC_complete make complete).symm.trans ((hdecode c).symm.trans h))
    rw [hencode, Command.withSA, Command.withSB, declaredA, declaredB]
    rfl

/-- Settles O2: a command that decodes has a row, and the row's format says where its operands stand. -/
theorem encodeOfDecodeIsTheNamedPorts : Obligations.EncodeOfDecodeIsTheNamedPorts := by
  intro c i complete h
  obtain ⟨row, found⟩ := exists_findRow_of_decode h
  exact ⟨row, found, encode_of_decode (codedBy_of_findRow found) complete h⟩

/-- Settles O4: the table words by evaluation of the decoder. -/
theorem tableWordsDecode : Obligations.TableWordsDecode := by
  unfold Obligations.TableWordsDecode
  decide

/-! ### Steps in which the port decides (R71) -/

section
variable {s : State} {c : Command} {rest : List Command}

/-- With no reset and no response to take, the block looks at the command at the head of the port. -/
theorem fetch_head (rst : s.port.rst = false) (rsp : s.rsp = none) (head : s.port.cmds = c :: rest) :
    fetch s = fetchCommand (c :: rest) := by
  simp [fetch, rst, rsp, head]

theorem accept_eq (head : s.port.cmds = c :: rest) :
    accept s = { s with busy := false, port := { s.port with cmds := rest } } := by
  rw [accept, head, List.tail_cons]

/-- Settles O5: the command at the head is decoded, taken, and run. -/
theorem stepRunsTheDecodedCommand : Obligations.StepRunsTheDecodedCommand := by
  intro s c rest i rst rsp head decoded
  have fetched : fetch s = .run i := by simp only [fetch_head rst rsp head, fetchCommand, decoded]
  rw [← accept_eq head]
  simp only [step, fetched]

theorem step_illegal (rst : s.port.rst = false) (rsp : s.rsp = none) (head : s.port.cmds = c :: rest)
    (outside : findRow c.op = none) : step s = .next (raise (.illegalCommand c.op) (accept s)) := by
  have fetched : fetch s = .illegal c.op := by
    simp only [fetch_head rst rsp head, fetchCommand, decode_of_findRow_none outside]
  simp only [step, fetched]

end

/-- The opcodes outside the map, counted (R77): nine below 0x1A, and all the 230 words from there on. -/
theorem count_findRow_none : ((List.range 256).filter (fun n => (findRow (BitVec.ofNat 8 n)).isNone)).length = 239 := by
  have cut : List.range 256 = List.range 26 ++ List.range' 26 230 := by
    rw [List.range_eq_range', List.range_eq_range', List.range'_append_1]
  have low : ((List.range 26).filter (fun n => (findRow (BitVec.ofNat 8 n)).isNone)).length = 9 := by decide
  have high : (List.range' 26 230).filter (fun n => (findRow (BitVec.ofNat 8 n)).isNone) = List.range' 26 230 := by
    refine List.filter_eq_self.mpr fun n hn => ?_
    have bounds := List.mem_range'_1.mp hn
    rw [Option.isNone_iff_eq_none, findRow_eq_none_iff_gap, BitVec.toNat_ofNat]
    omega
  rw [cut, List.filter_append, List.length_append, low, high, List.length_range']

/-- Settles O6: the gaps of the map, their number, and the step on a word in one of them. -/
theorem illegalOpcodeAnswersIllegalCommand : Obligations.IllegalOpcodeAnswersIllegalCommand := by
  refine ⟨findRow_eq_none_iff_gap, count_findRow_none, fun s c rest rst rsp head outside => ?_⟩
  refine ⟨_, step_illegal rst rsp head outside, ?_, rfl⟩
  rw [← accept_eq head]
  exact raise_answersError (.illegalCommand c.op) (accept s)

/-! ### Waiting (R228) -/

theorem run_succ_of_step {s t : State} (run : step s = .next t) (k : Nat) : core.run (k + 1) s = core.run k t := by
  have coreStep : core.step s = .next t := run
  simp only [Host.Core.run, coreStep]

/-- A state that a step leaves alone stays for any number of steps. -/
theorem run_of_step_self {t : State} (still : step t = .next t) (k : Nat) : core.run k t = .next t := by
  induction k with
  | zero => rfl
  | succ k ih => exact (run_succ_of_step still k).trans ih

/-- A stream short of its declared length is not read. -/
theorem readStream_short {declared : Length} {delivered : Stream} (short : delivered.length < declared.toNat) :
    readStream declared delivered = none := if_neg (not_le.mpr short)

/-- A command that misses bytes on a port its format names does not decode yet. -/
theorem decode_of_shortOfBytes {f : Format} {c : Command} (reads : DecodesBy f c.op) (short : shortOfBytes f c) :
    decode c = .error .awaitingBytes := by
  cases f with
  | N => exact short.elim
  | V => exact short.elim
  | S =>
    obtain ⟨make, hdecode⟩ := reads
    refine (hdecode c).trans ?_
    simp only [decodeS, readStream_short short]
  | C =>
    obtain ⟨make, hdecode⟩ := reads
    refine (hdecode c).trans ?_
    rcases short with shortA | shortB
    · simp only [decodeC, readStream_short shortA]
    · cases read : readStream c.saLen c.sa <;> simp only [decodeC, read, readStream_short shortB]

theorem step_waiting {s : State} {c : Command} {rest : List Command} (rst : s.port.rst = false) (rsp : s.rsp = none)
    (head : s.port.cmds = c :: rest) (waits : decode c = .error .awaitingBytes) : step s = .next (await s) := by
  have fetched : fetch s = .waiting := by simp only [fetch_head rst rsp head, fetchCommand, waits]
  simp only [step, fetched]

/-- Settles O7: the waiting block finds the same command short of bytes again, and the block with a response that is not
taken stands still. -/
theorem blockWaitsForTheHost : Obligations.BlockWaitsForTheHost := by
  refine ⟨fun s c rest row k rst rsp head found short => ?_, fun s r k rst rsp refused => ?_⟩
  · have waits : decode c = .error .awaitingBytes := decode_of_shortOfBytes (decodesBy_of_findRow found) short
    have first : step s = .next (await s) := step_waiting rst rsp head waits
    have again : step (await s) = .next (await s) := step_waiting (s := await s) rst rsp head waits
    exact (run_succ_of_step first k).trans (run_of_step_self again k)
  · have fetched : fetch s = .idle := by simp [fetch, rst, rsp, refused]
    exact run_of_step_self (by simp only [step, fetched]) k

/-! ### Delivery and reset (R71, R206, R221) -/

/-- Settles O8: a response on the port of a host that takes responses is what the step fetches. -/
theorem responseIsDelivered : Obligations.ResponseIsDelivered := by
  intro s r rst rsp takes
  have fetched : fetch s = .answered r := by simp [fetch, rst, rsp, takes]
  simp only [step, fetched]
  rfl

/-- Settles O9: a reset gives the values of R37, and of the commands offered it takes away the one that waits. -/
theorem resetAbandonsTheCommand : Obligations.ResetAbandonsTheCommand := by
  intro s rst
  have fetched : fetch s = .reset := by simp [fetch, rst]
  refine ⟨resetBlock s, by simp only [step, fetched], rfl, rfl, rfl, rfl, rfl, rfl, rfl, rfl, fun busy => ?_,
    fun busy => ?_⟩ <;> simp [busy]

end Sys2Proof.Machine
end

section
/-! The family `40_base64.md`, the accepted texts: the alphabet and its inverse (R90, R91), the text of every byte sequence
(R92, R93), the bytes of every accepted text (R94, R98), the bits that are not delivered (R99) and the round trip (R101). -/

namespace Sys2Proof.Machine

/-! ### The alphabet (R90, R91) -/

theorem b64Inv_b64Char : ∀ v : BitVec 6, b64Inv (b64Char v) = some v := by decide

theorem b64Char_toNat (v : BitVec 6) : (b64Char v).toNat =
    if v.toNat < 26 then 0x41 + v.toNat
    else if v.toNat < 52 then 0x61 + (v.toNat - 26)
    else if v.toNat < 62 then 0x30 + (v.toNat - 52)
    else if v.toNat = 62 then 0x2B else 0x2F := by
  simp only [b64Char, apply_ite BitVec.toNat, BitVec.toNat_ofNat, BitVec.reduceToNat]
  split_ifs <;> omega

/-- Each range of characters is counted from its first value on. -/
theorem b64Char_of_b64Inv {c : Byte} {v : BitVec 6} (h : b64Inv c = some v) : b64Char v = c := by
  apply BitVec.eq_of_toNat_eq
  have char := b64Char_toNat v
  simp only [b64Inv] at h
  split_ifs at h
  all_goals
    have value := congrArg BitVec.toNat (Option.some.inj h)
    simp only [BitVec.toNat_ofNat, BitVec.reduceToNat] at value
    split_ifs at char <;> omega

theorem b64Inv_eq_some_iff {c : Byte} {v : BitVec 6} : b64Inv c = some v ↔ b64Char v = c :=
  ⟨b64Char_of_b64Inv, fun h => h ▸ b64Inv_b64Char v⟩

/-- Settles O20: the table by evaluation, and its inverse. -/
theorem base64AlphabetIsTheTable : Obligations.Base64AlphabetIsTheTable :=
  ⟨by decide, fun _ _ => b64Inv_eq_some_iff, b64Inv_b64Pad⟩

/-! ### `B64E` (R92, R93) -/

/-- No character of a group is the padding character (R91). -/
theorem groupChar_ne_b64Pad (g : BitVec 24) (j : Nat) : groupChar g j ≠ b64Pad := by
  intro h
  have pad : b64Inv b64Pad = some (g.extractLsb' (18 - 6 * j) 6) := h ▸ b64Inv_b64Char _
  exact absurd (b64Inv_b64Pad.symm.trans pad) nofun

theorem encodeText_length (sa : List Byte) : (encodeText sa).length = 4 * ((sa.length + 2) / 3) := by
  fun_induction encodeText sa with
  | case1 => rfl
  | case2 => simp
  | case3 => simp
  | case4 b0 b1 b2 rest g ih =>
    simp only [List.length_append, List.length_cons, List.length_nil, ih]
    omega

/-- One `'='` for each byte that the last group misses (R93). -/
theorem encodeText_count_b64Pad (sa : List Byte) : (encodeText sa).count b64Pad = (3 - sa.length % 3) % 3 := by
  fun_induction encodeText sa with
  | case1 => rfl
  | case2 b0 g => simp [groupChar_ne_b64Pad]
  | case3 b0 b1 g => simp [groupChar_ne_b64Pad]
  | case4 b0 b1 b2 rest g ih =>
    simp only [List.count_append, ih]
    simp [groupChar_ne_b64Pad]
    omega

/-- The 24 bits of group `g`, missing bytes counting as zero (R92). -/
def byteGroup (sa : List Byte) (g : Nat) : BitVec 24 :=
  packGroup (sa.getD (3 * g) 0) (sa.getD (3 * g + 1) 0) (sa.getD (3 * g + 2) 0)

/-- The four characters of group `g`, missing characters counting as `'='` (R92). -/
def groupText (sa : List Byte) (g : Nat) : Stream :=
  [groupChar (byteGroup sa g) 0, groupChar (byteGroup sa g) 1,
    if 3 * g + 1 < sa.length then groupChar (byteGroup sa g) 2 else b64Pad,
    if 3 * g + 2 < sa.length then groupChar (byteGroup sa g) 3 else b64Pad]

theorem byteGroup_succ (b0 b1 b2 : Byte) (rest : List Byte) (g : Nat) :
    byteGroup (b0 :: b1 :: b2 :: rest) (g + 1) = byteGroup rest g := rfl

/-- Past the first three bytes the groups are those of the rest. -/
theorem groupText_succ (b0 b1 b2 : Byte) (rest : List Byte) (g : Nat) :
    groupText (b0 :: b1 :: b2 :: rest) (g + 1) = groupText rest g := by
  have second : 3 * (g + 1) + 1 < rest.length + 1 + 1 + 1 ↔ 3 * g + 1 < rest.length := by omega
  have third : 3 * (g + 1) + 2 < rest.length + 1 + 1 + 1 ↔ 3 * g + 2 < rest.length := by omega
  simp only [groupText, byteGroup_succ, List.length_cons, second, third]

/-- The text is its groups, four characters each. -/
theorem encodeText_getElem? {sa : List Byte} {j : Nat} (place : j < 4) :
    ∀ g, 3 * g < sa.length → (encodeText sa)[4 * g + j]? = (groupText sa g)[j]? := by
  fun_induction encodeText sa with
  | case1 => exact fun g within => absurd within (Nat.not_lt_zero _)
  | case2 b0 =>
    intro g within
    obtain rfl : g = 0 := by simpa using within
    rw [Nat.mul_zero, Nat.zero_add]
    rfl
  | case3 b0 b1 =>
    intro g within
    obtain rfl : g = 0 := by
      simp only [List.length_cons, List.length_nil] at within
      omega
    rw [Nat.mul_zero, Nat.zero_add]
    rfl
  | case4 b0 b1 b2 rest bits ih =>
    intro g within
    cases g with
    | zero =>
      have second : 3 * 0 + 1 < (b0 :: b1 :: b2 :: rest).length := by simp
      have third : 3 * 0 + 2 < (b0 :: b1 :: b2 :: rest).length := by simp
      rw [Nat.mul_zero, Nat.zero_add, List.getElem?_append_left (by simpa using place), groupText, if_pos second,
        if_pos third]
      rfl
    | succ g =>
      have inner : 3 * g < rest.length := by
        simp only [List.length_cons] at within
        omega
      have index : 4 * (g + 1) + j - 4 = 4 * g + j := by omega
      rw [List.getElem?_append_right (by simp only [List.length_cons, List.length_nil]; omega), groupText_succ,
        ← ih g inner]
      exact congrArg (fun n => (encodeText rest)[n]?) index

/-- Settles O21: `B64E` answers the text of its groups, and the response changes `ST` alone. -/
theorem b64eWritesTheGroups : Obligations.B64eWritesTheGroups := fun sa s =>
  ⟨respondText (encodeText sa) s, encodeText sa, exec_b64e sa s, respondText_answersOk _ s, rfl, rfl, rfl,
    encodeText_length sa, encodeText_count_b64Pad sa, fun g within =>
      ⟨encodeText_getElem? (j := 0) (by omega) g within, encodeText_getElem? (j := 1) (by omega) g within,
        encodeText_getElem? (j := 2) (by omega) g within, encodeText_getElem? (j := 3) (by omega) g within⟩⟩

/-! ### The scan of an accepted text (R94, R97) -/

/-- A character of the alphabet is passed over. -/
theorem scanText_cons_of_b64Inv {c : Byte} {v : BitVec 6} (h : b64Inv c = some v) (rest : Stream) :
    scanText (c :: rest) = scanText rest := by
  have char : c ≠ b64Pad := by
    rintro rfl
    exact absurd (b64Inv_b64Pad.symm.trans h) nofun
  simp [scanText, char, h]

/-- What the scan answers for a text without an offence is the number of `'='` in it. -/
theorem scanText_of_accepted {text : Stream} (good : ∀ i, GoodAt text i) : scanText text = .ok (text.count b64Pad) := by
  induction text with
  | nil => rfl
  | cons c rest ih =>
    have later := ih fun i => goodAt_succ.mp (good (i + 1))
    by_cases pad : c = b64Pad
    · have placed : paddingOffends rest = false := by simpa [pad, b64Inv_b64Pad] using goodAt_zero.mp (good 0)
      simp [scanText, pad, placed, later]
    · obtain ⟨v, hv⟩ : ∃ v, b64Inv c = some v := by
        simpa [pad, Option.isSome_iff_exists] using goodAt_zero.mp (good 0)
      rw [scanText_cons_of_b64Inv hv, later, List.count_cons_of_ne pad]

/-- Every answer of the scan without an error is that number. -/
theorem scanText_eq_count {text : Stream} {padc : Nat} (h : scanText text = .ok padc) : padc = text.count b64Pad := by
  have good : ∀ i, GoodAt text i := by
    by_contra offends
    obtain ⟨i, c, hc, bad, before⟩ := exists_first_offence offends
    exact absurd ((scanText_first_offence hc bad before).symm.trans h) nofun
  exact Except.ok.inj (h.symm.trans (scanText_of_accepted good))

/-- Two characters `'='` at most, because the first of them stands in one of the last two places. -/
theorem count_b64Pad_le_two {text : Stream} (good : ∀ i, GoodAt text i) : text.count b64Pad ≤ 2 := by
  induction text with
  | nil => simp
  | cons c rest ih =>
    by_cases pad : c = b64Pad
    · have placed : paddingOffends rest = false := by simpa [pad, b64Inv_b64Pad] using goodAt_zero.mp (good 0)
      rcases paddingOffends_eq_false.mp placed with rfl | rfl <;> simp [pad]
    · rw [List.count_cons_of_ne pad]
      exact ih fun i => goodAt_succ.mp (good (i + 1))

theorem decodeText_of_accepted {text : Stream} (accepted : Accepted text) :
    decodeText text = .ok (decodeGroups (text.count b64Pad) text) := by
  obtain ⟨length, good⟩ := accepted
  simp [decodeText, length, scanText_of_accepted good]

/-! ### The groups of `B64D` (R94, R98) -/

/-- Induction over a text in groups of four characters. -/
theorem group_induction {motive : ∀ text : Stream, text.length % 4 = 0 → Prop} (nil : motive [] rfl)
    (group : ∀ c0 c1 c2 c3 rest (short : rest.length % 4 = 0) (whole : (c0 :: c1 :: c2 :: c3 :: rest).length % 4 = 0),
      motive rest short → motive (c0 :: c1 :: c2 :: c3 :: rest) whole) :
    ∀ (text : Stream) (length : text.length % 4 = 0), motive text length
  | [], _ => nil
  | [_], h => absurd h (by simp)
  | [_, _], h => absurd h (by simp)
  | [_, _, _], h => absurd h (by simp)
  | c0 :: c1 :: c2 :: c3 :: rest, h =>
    have short : rest.length % 4 = 0 := by
      simp only [List.length_cons] at h
      omega
    group c0 c1 c2 c3 rest short h (group_induction nil group rest short)

theorem groupBytes_length {m : Nat} (most : m ≤ 3) (g : BitVec 24) : (groupBytes g m).length = m := by
  simpa [groupBytes] using most

theorem groupBytes_getElem? {m j : Nat} (delivered : j < m) (place : j < 3) (g : BitVec 24) :
    (groupBytes g m)[j]? = some (g.extractLsb' (16 - 8 * j) 8) := by
  rw [groupBytes, List.getElem?_take_of_lt delivered]
  match j, place with
  | 0, _ => rfl
  | 1, _ => rfl
  | 2, _ => rfl

/-- Fewer bytes of a group are the first of more. -/
theorem groupBytes_take {m n : Nat} (h : m ≤ n) (g : BitVec 24) : groupBytes g m = (groupBytes g n).take m := by
  rw [groupBytes, groupBytes, List.take_take, Nat.min_eq_left h]

/-- The bytes a group delivers: `PADC` are missing in the last one (R94). -/
def bytesOfGroup (padc : Nat) (rest : Stream) : Nat := if rest = [] then 3 - padc else 3

theorem bytesOfGroup_le (padc : Nat) (rest : Stream) : bytesOfGroup padc rest ≤ 3 := by
  unfold bytesOfGroup
  split <;> omega

theorem decodeGroups_group (padc : Nat) (c0 c1 c2 c3 : Byte) (rest : Stream) :
    decodeGroups padc (c0 :: c1 :: c2 :: c3 :: rest) =
      groupBytes (unpackGroup c0 c1 c2 c3) (bytesOfGroup padc rest) ++ decodeGroups padc rest := by
  rw [decodeGroups]
  rfl

section
variable {padc : Nat} {text : Stream}

theorem decodeGroups_length (most : padc ≤ 2) (length : text.length % 4 = 0) :
    (decodeGroups padc text).length = text.length / 4 * 3 - padc := by
  induction text, length using group_induction with
  | nil => exact (Nat.zero_sub padc).symm
  | group c0 c1 c2 c3 rest short whole ih =>
    rw [decodeGroups_group, List.length_append, groupBytes_length (bytesOfGroup_le padc rest), ih, bytesOfGroup]
    split
    · next last =>
      subst last
      simp
    · next more =>
      have := List.length_pos_of_ne_nil more
      simp only [List.length_cons]
      omega

/-- The 24 bits of group `q` of a text (R94). -/
def charGroup (text : Stream) (q : Nat) : BitVec 24 :=
  sextetAt text (4 * q) ++ sextetAt text (4 * q + 1) ++ sextetAt text (4 * q + 2) ++ sextetAt text (4 * q + 3)

theorem charGroup_zero (c0 c1 c2 c3 : Byte) (rest : Stream) :
    charGroup (c0 :: c1 :: c2 :: c3 :: rest) 0 = unpackGroup c0 c1 c2 c3 := rfl

theorem charGroup_succ (c0 c1 c2 c3 : Byte) (rest : Stream) (q : Nat) :
    charGroup (c0 :: c1 :: c2 :: c3 :: rest) (q + 1) = charGroup rest q := rfl

/-- The bytes delivered are those of the groups, three a group. -/
theorem decodeGroups_getElem? {q j : Nat} (length : text.length % 4 = 0) (place : j < 3)
    (delivered : 3 * q + j < (decodeGroups padc text).length) :
    (decodeGroups padc text)[3 * q + j]? = some ((charGroup text q).extractLsb' (16 - 8 * j) 8) := by
  induction text, length using group_induction generalizing q with
  | nil => exact absurd delivered (Nat.not_lt_zero _)
  | group c0 c1 c2 c3 rest short whole ih =>
    have size := groupBytes_length (bytesOfGroup_le padc rest) (unpackGroup c0 c1 c2 c3)
    rw [decodeGroups_group] at delivered ⊢
    rw [List.length_append, size] at delivered
    cases q with
    | zero =>
      have first : j < bytesOfGroup padc rest := by
        by_cases last : rest = []
        · subst last
          simpa [decodeGroups] using delivered
        · simpa [bytesOfGroup, last] using place
      rw [Nat.mul_zero, Nat.zero_add, List.getElem?_append_left (size.symm ▸ first), groupBytes_getElem? first place,
        charGroup_zero]
    | succ q =>
      have full : bytesOfGroup padc rest = 3 := by
        by_cases last : rest = []
        · have := bytesOfGroup_le padc rest
          subst last
          simp only [decodeGroups, List.length_nil] at delivered
          omega
        · exact if_neg last
      have index : 3 * (q + 1) + j - 3 = 3 * q + j := by omega
      rw [List.getElem?_append_right (by omega), size, full, index, charGroup_succ]
      exact ih (by omega)

end

/-- Settles O22: an accepted text passes the scan, and its groups are read one by one. -/
theorem b64dReadsTheGroups : Obligations.B64dReadsTheGroups := by
  intro text s accepted
  have most : text.count b64Pad ≤ 2 := count_b64Pad_le_two accepted.2
  exact ⟨_, _, exec_b64d_of_ok (decodeText_of_accepted accepted) s, respondText_answersOk _ s, rfl, rfl, rfl, most,
    decodeGroups_length most accepted.1, fun _ _ => decodeGroups_getElem? accepted.1⟩

/-! ### The bits that are not delivered (R99) -/

/-- The scan of a text depends on its last characters through their own scan, when there are two or more of them: any
`'='` before them offends in either text. -/
theorem scanText_append_congr {u v : Stream} (hu : 2 ≤ u.length) (hv : 2 ≤ v.length) (same : scanText u = scanText v)
    (pre : Stream) : scanText (pre ++ u) = scanText (pre ++ v) := by
  have offends {w : Stream} (hw : 2 ≤ w.length) (rest : Stream) : paddingOffends (rest ++ w) = true := by
    by_contra placed
    rcases paddingOffends_eq_false.mp (Bool.not_eq_true _ ▸ placed) with e | e
    · have := congrArg List.length e
      simp only [List.length_append, List.length_nil] at this
      omega
    · have := congrArg List.length e
      simp only [List.length_append, List.length_singleton] at this
      omega
  induction pre with
  | nil => exact same
  | cons c rest ih => simp only [List.cons_append, scanText, offends hu, offends hv, ih]

/-- Whole groups before the last ones deliver three bytes each. -/
theorem decodeGroups_append {pre u : Stream} (padc : Nat) (length : pre.length % 4 = 0) (more : u ≠ []) :
    decodeGroups padc (pre ++ u) = decodeGroups 0 pre ++ decodeGroups padc u := by
  induction pre, length using group_induction with
  | nil => rfl
  | group c0 c1 c2 c3 rest short whole ih =>
    have inner : bytesOfGroup padc (rest ++ u) = 3 := if_neg fun e => more (List.append_eq_nil_iff.mp e).2
    have before : bytesOfGroup 0 rest = 3 := by
      unfold bytesOfGroup
      split <;> rfl
    simp only [List.cons_append, decodeGroups_group, inner, before, ih, List.append_assoc]

/-- Bits below the ones taken out do not matter. -/
theorem extractLsb'_append_congr {n : Nat} (a : BitVec n) {v v' : BitVec 6} {start len : Nat}
    (high : v.toNat / 2 ^ start = v'.toNat / 2 ^ start) :
    (a ++ v).extractLsb' start len = (a ++ v').extractLsb' start len := by
  apply BitVec.eq_of_getLsbD_eq
  intro i _
  have bit : v.getLsbD (start + i) = v'.getLsbD (start + i) := by
    simp only [BitVec.getLsbD, Nat.add_comm start i, ← Nat.testBit_div_two_pow, high]
  simp only [BitVec.getLsbD_extractLsb', BitVec.getLsbD_append, bit]

/-- Texts that end in groups `u` and `v` of as many characters are read alike, when the groups are scanned alike and agree
on the bytes delivered. -/
theorem exec_b64d_congr {pre u v : Stream} (length : pre.length % 4 = 0) (sizes : u.length = v.length) (some_u : u ≠ [])
    (scan : scanText (pre ++ u) = scanText (pre ++ v))
    (groups : ∀ padc, u.count b64Pad ≤ padc → decodeGroups padc u = decodeGroups padc v) (s : State) :
    exec (.b64d (pre ++ u)) s = exec (.b64d (pre ++ v)) s := by
  have some_v : v ≠ [] := fun e => some_u (List.eq_nil_of_length_eq_zero (sizes.trans (congrArg List.length e)))
  have same : decodeText (pre ++ u) = decodeText (pre ++ v) := by
    rw [decodeText, decodeText, List.length_append, List.length_append, sizes, ← scan]
    cases scanned : scanText (pre ++ u) with
    | error e => rfl
    | ok padc =>
      have count : u.count b64Pad ≤ padc := by
        rw [scanText_eq_count scanned, List.count_append]
        exact Nat.le_add_left _ _
      simp only [decodeGroups_append padc length some_u, decodeGroups_append padc length some_v, groups padc count]
  change execB64d _ s = execB64d _ s
  rw [execB64d, execB64d, same]

/-- A last group delivers the same bytes when the first `n` agree and `'='` leaves no more than `n`. -/
theorem decodeGroups_last_congr {c0 c1 c2 c3 d0 d1 d2 d3 : Byte} {n padc : Nat} (few : 3 - padc ≤ n)
    (same : groupBytes (unpackGroup c0 c1 c2 c3) n = groupBytes (unpackGroup d0 d1 d2 d3) n) :
    decodeGroups padc [c0, c1, c2, c3] = decodeGroups padc [d0, d1, d2, d3] := by
  have bytes : bytesOfGroup padc [] = 3 - padc := if_pos rfl
  simp only [decodeGroups_group, bytes, groupBytes_take few, same]

section
variable {a b b' c c' : Byte} {v v' : BitVec 6}

theorem sextet_of_b64Inv (h : b64Inv c = some v) : sextet c = v := by
  simp [sextet, h]

/-- The first byte of a group needs only the two upper bits of its second character. -/
theorem groupBytes_one_congr (hb : b64Inv b = some v) (hb' : b64Inv b' = some v') (high : v.toNat / 16 = v'.toNat / 16)
    (c2 c3 : Byte) : groupBytes (unpackGroup a b c2 c3) 1 = groupBytes (unpackGroup a b' c2 c3) 1 := by
  simp only [groupBytes, unpackGroup, sextet_of_b64Inv hb, sextet_of_b64Inv hb', List.take_succ_cons, List.take_zero,
    BitVec.extractLsb'_append_eq_of_le (show 6 ≤ 16 by omega), BitVec.extractLsb'_append_eq_of_le (show 6 ≤ 10 by omega),
    Nat.reduceSub, extractLsb'_append_congr (start := 4) (len := 8) (sextet a) high]

/-- The first two bytes of a group need only the four upper bits of its third character. -/
theorem groupBytes_two_congr (hc : b64Inv c = some v) (hc' : b64Inv c' = some v') (high : v.toNat / 4 = v'.toNat / 4)
    (c3 : Byte) : groupBytes (unpackGroup a b c c3) 2 = groupBytes (unpackGroup a b c' c3) 2 := by
  simp only [groupBytes, unpackGroup, sextet_of_b64Inv hc, sextet_of_b64Inv hc', List.take_succ_cons, List.take_zero,
    BitVec.extractLsb'_append_eq_of_le (show 6 ≤ 16 by omega), BitVec.extractLsb'_append_eq_of_le (show 6 ≤ 10 by omega),
    BitVec.extractLsb'_append_eq_of_le (show 6 ≤ 8 by omega),
    Nat.reduceSub, extractLsb'_append_congr (start := 2) (len := 8) (sextet a ++ sextet b) high]

end

/-- Settles O24: the two texts are scanned alike, and two `'='` leave one byte of the last group, one leaves two. -/
theorem b64dIgnoresDiscardedBits : Obligations.B64dIgnoresDiscardedBits := by
  intro pre a b b' c c' v v' s length
  refine ⟨fun hb hb' high => ?_, fun hc hc' high => ?_⟩
  · have tails : scanText [b, b64Pad, b64Pad] = scanText [b', b64Pad, b64Pad] := by
      rw [scanText_cons_of_b64Inv hb, scanText_cons_of_b64Inv hb']
    have scan : scanText (pre ++ [a, b, b64Pad, b64Pad]) = scanText (pre ++ [a, b', b64Pad, b64Pad]) := by
      simpa using scanText_append_congr (by simp) (by simp) tails (pre ++ [a])
    refine exec_b64d_congr (u := [a, b, b64Pad, b64Pad]) (v := [a, b', b64Pad, b64Pad]) length rfl (List.cons_ne_nil _ _)
      scan (fun padc count => ?_) s
    have two : 2 ≤ [a, b, b64Pad, b64Pad].count b64Pad :=
      (List.sublist_append_right [a, b] [b64Pad, b64Pad]).count_le b64Pad
    exact decodeGroups_last_congr (n := 1) (by omega) (groupBytes_one_congr hb hb' high _ _)
  · have tails : scanText [c, b64Pad] = scanText [c', b64Pad] := by
      rw [scanText_cons_of_b64Inv hc, scanText_cons_of_b64Inv hc']
    have scan : scanText (pre ++ [a, b, c, b64Pad]) = scanText (pre ++ [a, b, c', b64Pad]) := by
      simpa using scanText_append_congr (by simp) (by simp) tails (pre ++ [a, b])
    refine exec_b64d_congr (u := [a, b, c, b64Pad]) (v := [a, b, c', b64Pad]) length rfl (List.cons_ne_nil _ _) scan
      (fun padc count => ?_) s
    have one : 1 ≤ [a, b, c, b64Pad].count b64Pad :=
      (List.sublist_append_right [a, b, c] [b64Pad]).count_le b64Pad
    exact decodeGroups_last_congr (n := 2) (by omega) (groupBytes_two_congr hc hc' high _)

/-! ### The round trip (R101) -/

theorem sextet_groupChar (g : BitVec 24) (j : Nat) : sextet (groupChar g j) = g.extractLsb' (18 - 6 * j) 6 :=
  sextet_of_b64Inv (b64Inv_b64Char _)

/-- Four characters that stand for the sextets of a group give the group back (R53). -/
theorem unpackGroup_eq {g : BitVec 24} {c2 c3 : Byte} (h2 : sextet c2 = g.extractLsb' 6 6)
    (h3 : sextet c3 = g.extractLsb' 0 6) : unpackGroup (groupChar g 0) (groupChar g 1) c2 c3 = g := by
  rw [unpackGroup, sextet_groupChar, sextet_groupChar, h2, h3,
    BitVec.extractLsb'_append_extractLsb'_eq_extractLsb' (rfl : 18 - 6 * 0 = 18 - 6 * 1 + 6),
    BitVec.extractLsb'_append_extractLsb'_eq_extractLsb' (rfl : 18 - 6 * 1 = 6 + 6),
    BitVec.extractLsb'_append_extractLsb'_eq_extractLsb' (rfl : 6 = 0 + 6)]
  exact BitVec.extractLsb'_eq_self

theorem groupBytes_packGroup (b0 b1 b2 : Byte) : groupBytes (packGroup b0 b1 b2) 3 = [b0, b1, b2] := by
  have first : (packGroup b0 b1 b2).extractLsb' 16 8 = b0 := by
    rw [packGroup, BitVec.extractLsb'_append_eq_of_le (by omega)]
    exact BitVec.extractLsb'_append_eq_left
  have second : (packGroup b0 b1 b2).extractLsb' 8 8 = b1 := by
    rw [packGroup, BitVec.extractLsb'_append_eq_of_le (by omega)]
    exact BitVec.extractLsb'_append_eq_right
  have third : (packGroup b0 b1 b2).extractLsb' 0 8 = b2 := BitVec.extractLsb'_append_eq_right
  simp only [groupBytes, first, second, third, List.take_succ_cons, List.take_zero]

/-- Of a group without a third byte the lowest sextet is zero, as `'='` counts. -/
theorem extractLsb'_packGroup_low (b0 b1 : Byte) : (packGroup b0 b1 0).extractLsb' 0 6 = 0 := by
  rw [packGroup, BitVec.extractLsb'_append_eq_of_add_le (by omega)]
  rfl

/-- Of a group without a second byte the sextet above it is zero as well. -/
theorem extractLsb'_packGroup_mid (b0 : Byte) : (packGroup b0 0 0).extractLsb' 6 6 = 0 := by
  apply BitVec.eq_of_getLsbD_eq
  intro i hi
  have zero : (packGroup b0 0 0).getLsbD (6 + i) = false := by
    simp only [packGroup, BitVec.getLsbD_append]
    split
    · simp
    · rw [if_pos (by omega)]
      simp
  rw [BitVec.getLsbD_extractLsb', zero, Bool.and_false]
  exact (BitVec.getLsbD_zero (w := 6)).symm

/-- What `B64E` writes passes the scan. -/
theorem scanText_encodeText (x : List Byte) : scanText (encodeText x) = .ok ((3 - x.length % 3) % 3) := by
  have char (g : BitVec 24) (j : Nat) (rest : Stream) : scanText (groupChar g j :: rest) = scanText rest :=
    scanText_cons_of_b64Inv (b64Inv_b64Char _) rest
  fun_induction encodeText x with
  | case1 => rfl
  | case2 b0 g =>
    rw [char, char]
    rfl
  | case3 b0 b1 g =>
    rw [char, char, char]
    rfl
  | case4 b0 b1 b2 rest g ih => simp only [List.cons_append, List.nil_append, char, ih, List.length_cons, Nat.add_assoc,
      Nat.reduceAdd, Nat.add_mod_right]

/-- Reading the groups of what `B64E` wrote gives the bytes back. -/
theorem decodeGroups_encodeText (x : List Byte) : decodeGroups ((3 - x.length % 3) % 3) (encodeText x) = x := by
  have pad : sextet b64Pad = 0 := rfl
  fun_induction encodeText x with
  | case1 => rfl
  | case2 b0 g =>
    have group : unpackGroup (groupChar g 0) (groupChar g 1) b64Pad b64Pad = g :=
      unpackGroup_eq (pad.trans (extractLsb'_packGroup_mid b0).symm) (pad.trans (extractLsb'_packGroup_low b0 0).symm)
    rw [decodeGroups_group, group, groupBytes_take (bytesOfGroup_le _ _), groupBytes_packGroup]
    rfl
  | case3 b0 b1 g =>
    have group : unpackGroup (groupChar g 0) (groupChar g 1) (groupChar g 2) b64Pad = g :=
      unpackGroup_eq (sextet_groupChar g 2) (pad.trans (extractLsb'_packGroup_low b0 b1).symm)
    rw [decodeGroups_group, group, groupBytes_take (bytesOfGroup_le _ _), groupBytes_packGroup]
    rfl
  | case4 b0 b1 b2 rest g ih =>
    have group : unpackGroup (groupChar g 0) (groupChar g 1) (groupChar g 2) (groupChar g 3) = g :=
      unpackGroup_eq (sextet_groupChar g 2) (sextet_groupChar g 3)
    have padding : (3 - (b0 :: b1 :: b2 :: rest).length % 3) % 3 = (3 - rest.length % 3) % 3 := by
      simp only [List.length_cons]
      omega
    have full : bytesOfGroup ((3 - rest.length % 3) % 3) (encodeText rest) = 3 := by
      cases rest with
      | nil => rfl
      | cons r more => exact if_neg fun e => absurd (congrArg List.length e) (by simp [encodeText_length])
    rw [padding]
    simp only [List.cons_append, List.nil_append, decodeGroups_group, group, full, ih]
    rw [groupBytes_packGroup]
    rfl

/-- The reader undoes the writer, for every byte sequence (R101). -/
theorem decodeText_encodeText (x : List Byte) : decodeText (encodeText x) = .ok x := by
  have whole : (encodeText x).length % 4 = 0 := by
    rw [encodeText_length]
    exact Nat.mul_mod_right 4 _
  simp [decodeText, whole, scanText_encodeText, decodeGroups_encodeText]

/-- Settles O25: the text on the response port of `B64E` reads as the bytes it was written from. -/
theorem base64RoundTrip : Obligations.Base64RoundTrip := fun x s =>
  ⟨_, _, exec_b64e x s, rfl, fun s' => ⟨_, exec_b64d_of_ok (decodeText_encodeText x) s', respondText_answersOk x s'⟩⟩

end Sys2Proof.Machine
end

section
/-! The family `41_construction.md`, the derived rule: what `out_of_range` says of the values (R122). -/

namespace Sys2Proof.Machine

/-- The cause is the one with its code and sub-code (R191). -/
theorem Cause.eq_permutationOutOfRange_iff {e : Cause} : e.code = 4 ∧ e.sub = 3 ↔ e = .permutationOutOfRange := by
  cases e <;> simp [Cause.code, Cause.sub]

/-- Of distinct values, as many as the size, those that do not span the range have one beyond it: else they would be a
permutation (R122). -/
theorem not_spansRange_iff {size : Nat} {p : List Byte} (nonempty : 0 < size) (length : p.length = size)
    (distinct : p.Nodup) : ¬ SpansRange size p ↔ ∃ d ∈ p, size ≤ d.toNat := by
  refine ⟨fun outside => ?_, fun ⟨d, hd, beyond⟩ spans => ?_⟩
  · by_contra none_beyond
    have below : ∀ d ∈ p, d.toNat < size := fun d hd => not_le.mp fun h => none_beyond ⟨d, hd, h⟩
    exact outside (IsPermutation.spansRange ⟨length, distinct, below⟩ nonempty)
  · have most := spans.2.2 d hd
    omega

/-- The tests of steps 6 to 8 report `out_of_range` exactly then. -/
theorem checkPermutation_eq_outOfRange_iff {size : Nat} {p : List Byte} (nonempty : 0 < size) :
    checkPermutation size p = some .permutationOutOfRange ↔ p.length = size ∧ p.Nodup ∧ ∃ d ∈ p, size ≤ d.toNat := by
  by_cases length : p.length = size
  · by_cases distinct : p.Nodup
    · obtain ⟨spanning, outside⟩ := checkPermutation_range length distinct
      rw [← not_spansRange_iff nonempty length distinct]
      by_cases spans : SpansRange size p
      · simp [spanning spans, spans]
      · simp [outside spans, spans, length, distinct]
    · simp [checkPermutation_notUnique length distinct, distinct]
  · simp [checkPermutation_length length, length]

/-- Behind tests that pass, `CFG` answers the error of the permutation's test, and `OK` when there is none. -/
theorem outOfRange_iff_of_construct {sa sb : Stream} {len : Length} {p : List Byte} {s t : State}
    (ha : checkAlphabet sa = none) (hm : checkMinLength (readLen len) = none) (hd : decodeText sb = .ok p)
    (run : exec (.cfg sa sb len) s = .next t) :
    (stCode t.st = 4 ∧ stSub t.st = 3) ↔ checkPermutation sa.length p = some .permutationOutOfRange := by
  cases test : checkPermutation sa.length p with
  | none =>
    obtain rfl := Host.Outcome.next.inj ((exec_cfg_of_ok (construct_of_passed ha hm hd test) s).symm.trans run)
    simp
  | some e =>
    obtain rfl := Host.Outcome.next.inj
      ((exec_cfg_of_error (construct_of_checkPermutation ha hm hd test) s).symm.trans run)
    rw [raise_st, stCode_status, stSub_status, Option.some.injEq]
    exact Cause.eq_permutationOutOfRange_iff

/-- Settles O29: an 8-bit value is never at or above an alphabet of 256. -/
theorem outOfRangeIsAValueAtOrAboveTheSize : Obligations.OutOfRangeIsAValueAtOrAboveTheSize := by
  intro sa sb len p s t least most distinct positive capacity hd run
  have reported := (outOfRange_iff_of_construct (checkAlphabet_none.mpr ⟨least, most, distinct⟩)
    (checkMinLength_none.mpr ⟨positive, capacity⟩) hd run).trans (checkPermutation_eq_outOfRange_iff (by omega))
  refine ⟨reported, fun full outOfRange => ?_⟩
  obtain ⟨-, -, d, -, beyond⟩ := reported.mp outOfRange
  have byte := d.isLt
  omega

end Sys2Proof.Machine
end
